-- ==== Sys2Proof/Word.lean ====
section
/-! DEFINITION. The word types of LZWENC (10_state R22, 20_memory R60) and a colour triple. -/

namespace Sys2Proof

/-- A host register word: 32 bits (10_state R22). -/
abbrev Word := BitVec 32

/-- A 16-bit field: a dimension or a delay (10_state R27, R31). -/
abbrev Half := BitVec 16

/-- One byte of frame memory or of the output stream (20_memory R60). -/
abbrev Byte := BitVec 8

/-- An (R, G, B) triple: a pixel (20_memory R61) or a palette entry (10_state R38). -/
structure Rgb where
  r : Byte
  g : Byte
  b : Byte
deriving DecidableEq, Repr, Inhabited

end Sys2Proof
end

