-- ==== Sys2Proof/Syntax.lean ====
section
/-! DEFINITION. The ten commands (30_encoding R91): one constructor per row of spec/opcode_table.json. -/

namespace Sys2Proof

/-- A command. The only operand in the word is OWN; the others come from ARG0 and ARG1 (30_encoding R90, R93). -/
inductive Instr where
  /-- START, opcode 0x01; `own` is CMD[8] (43_container R181). -/
  | start (own : Bool)
  /-- ADD_FRAME, opcode 0x02 (43_container R182). -/
  | addFrame
  /-- FINISH, opcode 0x03 (43_container R186). -/
  | finish
  /-- SET_DELAY, opcode 0x10 (44_config R220). -/
  | setDelay
  /-- SET_REPEAT, opcode 0x11 (44_config R221). -/
  | setRepeat
  /-- SET_DISPOSE, opcode 0x12 (44_config R222). -/
  | setDispose
  /-- SET_TRANSPARENT, opcode 0x13 (44_config R223). -/
  | setTransparent
  /-- CLEAR_TRANSPARENT, opcode 0x14 (44_config R224). -/
  | clearTransparent
  /-- SET_SIZE, opcode 0x15 (44_config R225). -/
  | setSize
  /-- SET_QUALITY, opcode 0x16 (44_config R226). -/
  | setQuality
deriving DecidableEq, Repr

end Sys2Proof
end

