-- ==== Sys2Proof/WellFormed.lean ====
section
/-! DEFINITION. Which command words are legal (30_encoding R94), check by check, and which commands are well formed. -/

namespace Sys2Proof

/-- R94 item 1: the OPCODE field holds one of the ten opcodes of 30_encoding R91. -/
def opcodeKnown (w : Word) : Bool :=
  [0x01, 0x02, 0x03, 0x10, 0x11, 0x12, 0x13, 0x14, 0x15, 0x16].contains (w.toNat % 256)

/-- R94 item 2: the reserved bits [31:9] are 0. -/
def reservedBitsZero (w : Word) : Bool :=
  w.toNat / 512 == 0

/-- R94 item 3: OWN, bit 8, is 0 unless the opcode is START's. -/
def ownBitAllowed (w : Word) : Bool :=
  w.toNat / 256 % 2 == 0 || w.toNat % 256 == 0x01

/-- A command word is legal when none of the three conditions of R94 holds. -/
def wordLegal (w : Word) : Bool :=
  opcodeKnown w && reservedBitsZero w && ownBitAllowed w

/-- A command as syntax is always well formed: OWN is one bit, and no other command has an operand in its word
(30_encoding R90, R93). What can be ill formed is a word, which `wordLegal` checks. -/
def Instr.wellFormed : Instr → Bool
  | .start _ => true
  | .addFrame => true
  | .finish => true
  | .setDelay => true
  | .setRepeat => true
  | .setDispose => true
  | .setTransparent => true
  | .clearTransparent => true
  | .setSize => true
  | .setQuality => true

end Sys2Proof
end

