-- ==== Sys2Proof/Decode.lean ====
section
/-! DEFINITION. Decoding and encoding of command words (30_encoding R90 to R96). -/

namespace Sys2Proof

/-- Why a word is illegal, in the order 30_encoding R94 lists the conditions. -/
inductive DecodeError where
  /-- R94 item 1: the opcode is not in R91. -/
  | reservedOpcode
  /-- R94 item 2: a bit of [31:9] is set. -/
  | reservedBits
  /-- R94 item 3: OWN is set and the opcode is not START's. -/
  | ownNotAllowed
deriving DecidableEq, Repr

/-- OPCODE = word[7:0] (30_encoding R90). -/
def wordOpcode (w : Word) : Byte := w.extractLsb' 0 8

/-- OWN = word[8] (30_encoding R90). -/
def wordOwn (w : Word) : Bool := w.getLsbD 8

/-- word[31:9] (30_encoding R90). -/
def wordReserved (w : Word) : BitVec 23 := w.extractLsb' 9 23

/-- The opcode map of 30_encoding R91, with OWN handed to START. -/
def opcodeInstr (own : Bool) (op : Byte) : Option Instr :=
  match op.toNat with
  | 0x01 => some (.start own)
  | 0x02 => some .addFrame
  | 0x03 => some .finish
  | 0x10 => some .setDelay
  | 0x11 => some .setRepeat
  | 0x12 => some .setDispose
  | 0x13 => some .setTransparent
  | 0x14 => some .clearTransparent
  | 0x15 => some .setSize
  | 0x16 => some .setQuality
  | _ => none

/-- Decoding is a match on the whole word (30_encoding R92); an illegal word is rejected by the name of its first cause (R94). -/
def decode (w : Word) : Except DecodeError Instr :=
  match opcodeInstr (wordOwn w) (wordOpcode w) with
  | none => .error .reservedOpcode
  | some i =>
    if wordReserved w ≠ 0#23 then .error .reservedBits
    else if wordOwn w = true ∧ wordOpcode w ≠ 0x01#8 then .error .ownNotAllowed
    else .ok i

/-- The OPCODE of each command (30_encoding R91). -/
def instrOpcode : Instr → Byte
  | .start _ => 0x01#8
  | .addFrame => 0x02#8
  | .finish => 0x03#8
  | .setDelay => 0x10#8
  | .setRepeat => 0x11#8
  | .setDispose => 0x12#8
  | .setTransparent => 0x13#8
  | .clearTransparent => 0x14#8
  | .setSize => 0x15#8
  | .setQuality => 0x16#8

/-- The OWN bit of each command (30_encoding R90): 0 for every command but START. -/
def instrOwn : Instr → Bool
  | .start own => own
  | .addFrame => false
  | .finish => false
  | .setDelay => false
  | .setRepeat => false
  | .setDispose => false
  | .setTransparent => false
  | .clearTransparent => false
  | .setSize => false
  | .setQuality => false

/-- The command word: reserved bits 0, then OWN, then OPCODE (30_encoding R90). -/
def encode (i : Instr) : Word :=
  0#23 ++ BitVec.ofBool (instrOwn i) ++ instrOpcode i

/-- The command the decoder reads from a word of `nbits` bits numbered as spec/opcode_table.json numbers them.
A command is one 32-bit word (30_encoding R96), so its bits are the word's bits. -/
def decodeTableWord (nbits w : Nat) : Option Instr :=
  match decode (BitVec.ofNat 32 (w % 2 ^ nbits)) with
  | .ok i => some i
  | .error _ => none

end Sys2Proof
end

