-- ==== Sys2Proof/Config.lean ====
section
/-! DEFINITION. What is fixed for LZWENC (00_scope R8) and what the spec leaves open (00_scope R9, 93 P1 to P6). -/

namespace Sys2Proof

/-- A call of the quantizer port: its four operands (41_palette_indexer R120). -/
structure QuantCall where
  pixels  : List Rgb
  width   : Half
  height  : Half
  quality : Word
deriving DecidableEq, Repr

/-- An answer of the quantizer port, as plain data (41_palette_indexer R120, log 9).
The palette is `first` followed by `rest`, of which at most 256 entries count, so 1 ≤ PAL_LEN ≤ 256.
MAP sends a colour listed in `known` to the index listed with it, and any other colour to `other`. -/
structure Quantization where
  first : Rgb
  rest  : List Rgb
  known : List (Rgb × Byte)
  other : Byte
deriving DecidableEq, Repr, Inhabited

namespace Config

/-- HSIZE: slots of the LZW hash table (00_scope R8). -/
def hsize : Nat := 5003
/-- MAXBITS: the largest LZW code width (00_scope R8). -/
def maxBits : Nat := 12
/-- MAXMAXCODE = 2^MAXBITS (00_scope R8). -/
def maxMaxCode : Nat := 4096
/-- SUBBLOCK_MAX: data bytes of a full sub-block (00_scope R8). -/
def subblockMax : Nat := 254
/-- PALETTE_ENTRIES (00_scope R8). -/
def paletteEntries : Nat := 256
/-- PAL_SIZE_CODE: 2^(7+1) = 256 entries (00_scope R8). -/
def palSizeCode : Nat := 7
/-- COLOR_DEPTH, the operand cd that ADD_FRAME passes to the LZW unit (00_scope R8). -/
def colorDepth : Nat := 8
/-- TRAILER (00_scope R8). -/
def trailer : Byte := 0x3B#8
/-- DEFAULT_WIDTH (00_scope R8). -/
def defaultWidth : Half := 320#16
/-- DEFAULT_HEIGHT (00_scope R8). -/
def defaultHeight : Half := 240#16
/-- DEFAULT_QUALITY (00_scope R8). -/
def defaultQuality : Word := 10#32

/-- Free: how many pixels the capacity holds beyond the one it must hold (93 P1, log 7). -/
opaque extraPixels : Nat

/-- MAX_PIXELS, a natural number of at least 1 (00_scope R9, log 7). -/
def maxPixels : Nat := extraPixels + 1

/-- Free: QUANTIZE, a deterministic total function of its four operands (41_palette_indexer R121, 93 P2, log 8). -/
opaque quantize : QuantCall → Quantization

/-- Free: the byte of frame memory at an offset never written since power-on (70 R266, 93 P6, log 10). -/
opaque frameByte : Nat → Byte

/-- Free: REG_BASE, where the register file sits in the system; no rule depends on it (20_memory R69, 93 P5, log 22). -/
opaque regBase : Nat

/-- Free: FRAME_BASE, where frame memory sits in the system; no rule depends on it (20_memory R69, 93 P5, log 22). -/
opaque frameBase : Nat

end Config

end Sys2Proof
end

