-- ==== Sys2Proof/Machine/State.lean ====
section
/-! DEFINITION. The architectural state of LZWENC (10_state), its ports and inputs (20_memory), its faults and refusals
(60_exceptions R249), and the state after power-on reset (10_state R44). -/

namespace Sys2Proof.Machine

/-- Why the machine stops with a fault. -/
inductive Fault where
  /-- FRAME_HAZARD (60 R249, 70 R265): raised by the frame producer's write while BUSY = 1 for an ADD_FRAME.
  Safe: the spec itself makes it a fault and gives no value. -/
  | frameHazard
  /-- SINK_HANG (60 R249, 70 R268): raised by a step whose running command waits for a sink answer when no input is left
  that could bring one. Safe: the hardware only stays BUSY (log 3). -/
  | sinkHang
  /-- Raised by a frame-producer write at an offset outside frame memory (20_memory R60; log 11).
  Safe: the machine stops, and no byte of it exists. -/
  | frameOutOfRange
deriving DecidableEq, Repr

/-- Why a step has no meaning. -/
inductive Refusal where
  /-- Answered only by an arm of `exec` for an instruction that has no meaning yet; no arm does. Safe: no effect is claimed. -/
  | notModelled (mnemonic : String)
  /-- BAD_ACCESS (20_memory R63, 60 R249): a host access that is not a whole 32-bit word at a multiple of 4.
  Raised by the host port. Safe: the spec asks a model to refuse it. -/
  | badAccess
deriving DecidableEq, Repr

/-- STATUS.STATE, the lifecycle state (10_state R26). -/
inductive Lifecycle where
  | unstarted
  | startedFirst
  | startedSubseq
  | finished
deriving DecidableEq, Repr

/-- STATUS.RESULT (10_state R23, 60 R240). Codes 4 to 7 are never written, so they have no constructor. -/
inductive ResultCode where
  | ok
  | precond
  | sink
  | illegal
deriving DecidableEq, Repr

/-- What `raise` names (00_scope R14, 60 R240). -/
inductive Cause where
  | precondition
  | sinkError
  | illegalCommand
deriving DecidableEq, Repr

/-- An operation on the output sink (20_memory R66). -/
inductive SinkOp where
  | sinkOpen
  | sinkWrite (b : Byte)
  | sinkFlush
  | sinkClose
deriving DecidableEq, Repr

/-- The sink's answer to one operation (20_memory R66). An answer that never comes is an answer that is not in the list (log 3). -/
inductive SinkAnswer where
  | ok
  | fail
deriving DecidableEq, Repr

/-- One answered sink operation. -/
structure SinkRecord where
  op     : SinkOp
  answer : SinkAnswer
deriving DecidableEq, Repr

/-- The sink port: the SINK_PRESENT input (00_scope R9), the answers still to come, oldest first, and the operations
answered so far, newest first (20_memory R66, R67; log 3, log 19). -/
structure SinkPort where
  present : Bool
  answers : List SinkAnswer
  log     : List SinkRecord
deriving DecidableEq, Repr

/-- TRANSP: the configured transparent colour and its VALID bit (10_state R30). -/
structure Transp where
  valid  : Bool
  colour : Rgb
deriving DecidableEq, Repr

/-- The per-frame memories of the PaletteIndexer (10_state R38). `pal` holds PAL[0 .. PAL_LEN−1], the entries that are
written and read. -/
structure FrameUnit where
  pix      : List Rgb
  pal      : List Rgb
  palLen   : Nat
  used     : BitVec 256
  indexBuf : List Byte
deriving DecidableEq, Repr

/-- The LZW unit's registers and memories (10_state R39 to R42; log 14).
HTAB lists the slots that are not EMPTY, with their keys; CODETAB lists the slots ever written; both by ascending slot.
SB_BUF is held as its filled part, so SB_COUNT is its length. -/
structure LzwUnit where
  initBits : Nat
  nbits    : Nat
  maxcode  : Nat
  clear    : Nat
  eoi      : Nat
  free     : Nat
  clearFlg : Bool
  ent      : Nat
  htab     : List (Nat × Nat)
  codetab  : List (Nat × Nat)
  acc      : Nat
  accBits  : Nat
  sbBuf    : List Byte
  n        : Nat
  curPix   : Nat
deriving DecidableEq, Repr

/-- A command that runs (STATUS.BUSY = 1): the command, its latched operands (10_state R25, 70 R267), the SINK_PRESENT
sample (00_scope R9), how many of its sink operations have been answered (all ok), and whether a CMD write was dropped
while it ran (60 R244; log 4, log 6). -/
structure Running where
  instr    : Instr
  arg0     : Word
  arg1     : Word
  present  : Bool
  answered : Nat
  dropped  : Bool
deriving DecidableEq, Repr

/-- What the outside world does next (70 R270; log 2). `size` is the width of a host access in bytes. -/
inductive HostInput where
  /-- The host writes a register (10_state R35). -/
  | regWrite (size offset : Nat) (value : Word)
  /-- The host reads a register (10_state R35). -/
  | regRead (size offset : Nat)
  /-- The frame producer writes one byte of frame memory (20_memory R61). -/
  | frameWrite (offset : Nat) (value : Byte)
  /-- The sink gives further answers (20_memory R66). -/
  | sinkAnswers (answers : List SinkAnswer)
  /-- The SINK_PRESENT input takes a level (00_scope R9). -/
  | sinkPresent (level : Bool)
  /-- The external reset input is asserted (70 R260). -/
  | reset
deriving DecidableEq, Repr

/-- Frame memory: the bytes written since power-on, by ascending offset (20_memory R61; log 10). -/
abbrev Memory := List Host.Cell

/-- The state of the machine. The host-visible registers come first (10_state R22 to R34), then the running command, the
internal memories (10_state R38 to R42), frame memory and the ports (20_memory), and what a run supplies. -/
structure State where
  /-- ARG0 (10_state R25). -/
  arg0 : Word
  /-- ARG1 (10_state R25). -/
  arg1 : Word
  /-- STATUS.STATE (10_state R23, R26). -/
  lifecycle : Lifecycle
  /-- STATUS.RESULT (10_state R23). -/
  result : ResultCode
  /-- STATUS.SINK_ERR (10_state R23). -/
  sinkErr : Bool
  /-- STATUS.OVERRUN (10_state R23). -/
  overrun : Bool
  /-- The running command; STATUS.BUSY is 1 exactly when there is one (10_state R23). -/
  running : Option Running
  /-- DELAY.DELAY_CS (10_state R27). -/
  delayCs : Half
  /-- REPEAT, signed (10_state R28). -/
  repeatCount : Word
  /-- DISPOSE, signed (10_state R29). -/
  dispose : Word
  /-- TRANSP (10_state R30). -/
  transp : Transp
  /-- SIZE.WIDTH (10_state R31). -/
  width : Half
  /-- SIZE.HEIGHT (10_state R31). -/
  height : Half
  /-- QUALITY, signed (10_state R32). -/
  quality : Word
  /-- TRANS_INDEX (10_state R33). -/
  transIndex : Byte
  /-- SESSION.SIZE_SET (10_state R34). -/
  sizeSet : Bool
  /-- SESSION.OWN_SINK (10_state R34). -/
  ownSink : Bool
  /-- PIX, PAL, PAL_LEN, USED, INDEX_BUF (10_state R38). -/
  frame : FrameUnit
  /-- The LZW unit (10_state R39 to R42). -/
  lzw : LzwUnit
  /-- Frame memory (20_memory R61). -/
  frameMem : Memory
  /-- The sink port (20_memory R66). -/
  sink : SinkPort
  /-- The inputs still to come, next first (log 2). -/
  inputs : List HostInput
  /-- What the host's last register read returned (model's own, log 17). -/
  readData : Word
  /-- MAX_PIXELS (00_scope R9); no step changes it (log 7). -/
  maxPixels : Nat
  /-- Quantizer answers given as data; no step changes them (log 8). -/
  quantTable : List (QuantCall × Quantization)
deriving DecidableEq, Repr

/-- The PaletteIndexer's memories after reset: unspecified and never read before written (10_state R44; log 13). -/
def FrameUnit.reset : FrameUnit :=
  { pix := [], pal := [], palLen := 0, used := 0#256, indexBuf := [] }

/-- The LZW unit after reset: unspecified and never read before written (10_state R44; log 13). -/
def LzwUnit.reset : LzwUnit :=
  { initBits := 0, nbits := 0, maxcode := 0, clear := 0, eoi := 0, free := 0, clearFlg := false, ent := 0,
    htab := [], codetab := [], acc := 0, accBits := 0, sbBuf := [], n := 0, curPix := 0 }

/-- The machine right after power-on reset (10_state R44, 70 R260): no input pending, no sink answer given, nothing in
frame memory or in the stream. -/
def State.reset : State :=
  { arg0 := 0#32, arg1 := 0#32,
    lifecycle := .unstarted, result := .ok, sinkErr := false, overrun := false, running := none,
    delayCs := 0#16, repeatCount := 0xFFFFFFFF#32, dispose := 0xFFFFFFFF#32,
    transp := { valid := false, colour := { r := 0#8, g := 0#8, b := 0#8 } },
    width := 0#16, height := 0#16, quality := Config.defaultQuality, transIndex := 0#8,
    sizeSet := false, ownSink := false,
    frame := FrameUnit.reset, lzw := LzwUnit.reset, frameMem := [],
    sink := { present := false, answers := [], log := [] },
    inputs := [], readData := 0#32, maxPixels := Config.maxPixels, quantTable := [] }

end Sys2Proof.Machine
end

