-- ==== Sys2Proof/Machine/Ops.lean ====
section
/-! DEFINITION. The shared operations: sparse memories, frame memory, the sink port, how a command ends or waits
(00_scope R12 to R14), the session reset and the block reset. -/

namespace Sys2Proof.Machine

/-! ## Sparse memories: pairs of a key and a value, by ascending key -/

/-- The value listed at `a`, if any. -/
def cellsGet {α : Type} : List (Nat × α) → Nat → Option α
  | [], _ => none
  | (k, v) :: rest, a => if k = a then some v else cellsGet rest a

/-- `v` listed at `a`, every other key as before; the order of keys stays ascending. -/
def cellsPut {α : Type} : List (Nat × α) → Nat → α → List (Nat × α)
  | [], a, v => [(a, v)]
  | (k, w) :: rest, a, v =>
    if a < k then (a, v) :: (k, w) :: rest
    else if k = a then (a, v) :: rest
    else (k, w) :: cellsPut rest a v

/-- The canonical form of a sparse memory: keys strictly ascending. -/
abbrev cellsWf {α : Type} (m : List (Nat × α)) : Prop :=
  m.Pairwise (fun x y => x.1 < y.1)

/-! ## Frame memory (20_memory R61) -/

/-- The canonical form of frame memory. An unlisted offset reads as "never written", which no listed byte equals, so
ascending offsets are the whole of it (log 10). -/
abbrev Memory.wf (m : Memory) : Prop := cellsWf m

/-- How many bytes frame memory has: 3·MAX_PIXELS (20_memory R60). -/
def frameBytesCapacity (s : State) : Nat := 3 * s.maxPixels

/-- FrameRead(a): the byte written last, else the unspecified byte the environment holds there (00_scope R13, 70 R266; log 10). -/
def frameRead (m : Memory) (a : Nat) : Byte := (cellsGet m a).getD (Config.frameByte a)

/-- The frame producer writes one byte (20_memory R61). -/
def frameStore (a : Nat) (v : Byte) (s : State) : State :=
  { s with frameMem := cellsPut s.frameMem a v }

/-! ## The end of a command (00_scope R14, 60 R240) -/

/-- STATUS.BUSY (10_state R23). -/
def State.busy (s : State) : Bool := s.running.isSome

/-- `finish <code>`: RESULT is written and BUSY falls (00_scope R14). -/
def finishCmd (code : ResultCode) (s : State) : State :=
  { s with result := code, running := none }

/-- The result code of a cause (60 R240). -/
def causeCode : Cause → ResultCode
  | .precondition => .precond
  | .sinkError => .sink
  | .illegalCommand => .illegal

/-- `raise <Cause>`: LZWENC takes no trap (60 R246); the whole effect is the result code, and SINK_ERR for a sink failure
(60 R240, R242). -/
def raiseCause (c : Cause) (s : State) : State :=
  finishCmd (causeCode c) { s with sinkErr := s.sinkErr || decide (c = .sinkError) }

/-! ## The sink port (20_memory R66, R67, R71) -/

/-- How a sequence of sink operations ended. -/
inductive SinkStop where
  /-- every operation was answered ok -/
  | accepted
  /-- an operation was answered fail; no later one was offered -/
  | failed
  /-- an operation has no answer yet -/
  | unanswered
deriving DecidableEq, Repr

/-- Offer operations one at a time, the next only after the previous one was answered ok (20_memory R71 item 2). -/
def sinkOffer : List SinkOp → SinkPort → SinkPort × SinkStop
  | [], p => (p, .accepted)
  | op :: ops, p =>
    match p.answers with
    | [] => (p, .unanswered)
    | .ok :: rest => sinkOffer ops { p with answers := rest, log := ⟨op, .ok⟩ :: p.log }
    | .fail :: rest => ({ p with answers := rest, log := ⟨op, .fail⟩ :: p.log }, .failed)

/-- The byte a record adds to the output stream: a write answered ok, and nothing else (20_memory R67). -/
def acceptedByte (r : SinkRecord) : Option Byte :=
  match r.op, r.answer with
  | .sinkWrite b, .ok => some b
  | _, _ => none

/-- The output stream: the bytes answered ok, in the order they were offered (20_memory R67). -/
def streamOf (log : List SinkRecord) : List Byte := log.reverse.filterMap acceptedByte

/-- The output stream of a state. -/
def State.stream (s : State) : List Byte := streamOf s.sink.log

/-- One SinkWrite per byte, in order (00_scope R13 EmitByte). -/
def sinkWrites (bytes : List Byte) : List SinkOp := bytes.map SinkOp.sinkWrite

/-- The command `i`, accepted in state `s0`, waits for a sink answer: BUSY is 1, everything the command writes keeps its
value until the command completes (10_state R35; log 13), the operations answered so far are in the sink's log (20_memory
R68), and the operands stay latched (70 R267). -/
def waitForSink (i : Instr) (s0 : State) (p : SinkPort) : State :=
  { s0 with
    sink := p
    running := some
      { instr := i, arg0 := s0.arg0, arg1 := s0.arg1, present := s0.sink.present,
        answered := p.log.length - s0.sink.log.length, dropped := false } }

/-- The command `i`, accepted in `s0` and now in `s`, offers `ops` and goes on by how they ended. -/
def offerThen (i : Instr) (s0 s : State) (ops : List SinkOp) (onOk onFail : State → State) : State :=
  match sinkOffer ops s.sink with
  | (p, .accepted) => onOk { s with sink := p }
  | (p, .failed) => onFail { s with sink := p }
  | (p, .unanswered) => waitForSink i s0 p

/-! ## Resets -/

/-- SESSION_RESET: the configuration takes its power-on values (43_container R187). -/
def sessionReset (s : State) : State :=
  { s with
    delayCs := 0#16, repeatCount := 0xFFFFFFFF#32, dispose := 0xFFFFFFFF#32,
    transp := { valid := false, colour := { r := 0#8, g := 0#8, b := 0#8 } },
    width := 0#16, height := 0#16, quality := Config.defaultQuality, transIndex := 0#8,
    sizeSet := false, ownSink := false }

/-- The external reset (70 R260, R261): every piece of the block's state takes its reset value and a running command is
abandoned; frame memory, the sink with its stream, and the environment are not the block's (log 21). -/
def resetBlock (s : State) : State :=
  { State.reset with
    frameMem := s.frameMem, sink := s.sink, inputs := s.inputs, readData := s.readData,
    maxPixels := s.maxPixels, quantTable := s.quantTable }

/-- A session is running: STATE is STARTED_FIRST or STARTED_SUBSEQ (43_container R180). -/
def State.started (s : State) : Bool :=
  match s.lifecycle with
  | .unstarted => false
  | .startedFirst => true
  | .startedSubseq => true
  | .finished => false

end Sys2Proof.Machine
end

