-- ==== Sys2Proof/Machine/Operands.lean ====
section
/-! DEFINITION. Operand assembly from ARG0 and ARG1 (30_encoding R93). Signed operands are read with BitVec.toInt, which is
sext_32 (00_scope R11). -/

namespace Sys2Proof.Machine

/-- The low half of a word, bits [15:0]. -/
def lowHalf (w : Word) : Half := w.extractLsb' 0 16

/-- The high half of a word, bits [31:16]. -/
def highHalf (w : Word) : Half := w.extractLsb' 16 16

/-- ADD_FRAME fw = ARG0[15:0] (30_encoding R93). -/
def opFw (s : State) : Half := lowHalf s.arg0
/-- ADD_FRAME fh = ARG0[31:16] (30_encoding R93). -/
def opFh (s : State) : Half := highHalf s.arg0
/-- ADD_FRAME present = ARG1[0] (30_encoding R93). -/
def opPresent (s : State) : Bool := s.arg1.getLsbD 0
/-- SET_DELAY ms = ARG0[31:0], unsigned milliseconds (30_encoding R93). -/
def opMs (s : State) : Nat := s.arg0.toNat
/-- SET_REPEAT n, SET_DISPOSE code, SET_QUALITY q = ARG0[31:0], signed (30_encoding R93). -/
def opSigned (s : State) : Int := s.arg0.toInt
/-- SET_TRANSPARENT r, g, b = ARG0[23:16], ARG0[15:8], ARG0[7:0] (30_encoding R93). -/
def opColour (s : State) : Rgb :=
  { r := s.arg0.extractLsb' 16 8, g := s.arg0.extractLsb' 8 8, b := s.arg0.extractLsb' 0 8 }
/-- SET_SIZE w = ARG0[15:0] (30_encoding R93). -/
def opW (s : State) : Half := lowHalf s.arg0
/-- SET_SIZE h = ARG0[31:16] (30_encoding R93). -/
def opH (s : State) : Half := highHalf s.arg0

end Sys2Proof.Machine
end

