-- ==== Sys2Proof/Machine/Flags.lean ====
section
/-! DEFINITION. The status flags and the register words the host reads (10_state R22 to R34, R37). -/

namespace Sys2Proof.Machine

/-- The encoding of STATE (10_state R26). -/
def lifecycleCode : Lifecycle → BitVec 2
  | .unstarted => 0#2
  | .startedFirst => 1#2
  | .startedSubseq => 2#2
  | .finished => 3#2

/-- The encoding of RESULT (60 R240). -/
def resultCode : ResultCode → BitVec 3
  | .ok => 0#3
  | .precond => 1#3
  | .sink => 2#3
  | .illegal => 3#3

/-- STATUS: STATE [1:0], BUSY [2], RESULT [6:4], SINK_ERR [8], OVERRUN [9], the rest 0 (10_state R23). -/
def statusWord (s : State) : Word :=
  0#22 ++ BitVec.ofBool s.overrun ++ BitVec.ofBool s.sinkErr ++ 0#1 ++ resultCode s.result ++ 0#1
    ++ BitVec.ofBool s.busy ++ lifecycleCode s.lifecycle

/-- DELAY: DELAY_CS [15:0] (10_state R27). -/
def delayWord (s : State) : Word := 0#16 ++ s.delayCs

/-- TRANSP: B [7:0], G [15:8], R [23:16], VALID [24] (10_state R30). -/
def transpWord (s : State) : Word :=
  0#7 ++ BitVec.ofBool s.transp.valid ++ s.transp.colour.r ++ s.transp.colour.g ++ s.transp.colour.b

/-- SIZE: WIDTH [15:0], HEIGHT [31:16] (10_state R31). -/
def sizeWord (s : State) : Word := s.height ++ s.width

/-- TRANS_INDEX: bits [7:0] (10_state R33). -/
def transIndexWord (s : State) : Word := 0#24 ++ s.transIndex

/-- SESSION: SIZE_SET [0], OWN_SINK [1] (10_state R34). -/
def sessionWord (s : State) : Word :=
  0#30 ++ BitVec.ofBool s.ownSink ++ BitVec.ofBool s.sizeSet

/-- The sticky flags are cleared, as only a START that passes its state check does (10_state R23, 43_container R181). -/
def clearSticky (s : State) : State := { s with sinkErr := false, overrun := false }

end Sys2Proof.Machine
end

