-- ==== Sys2Proof/Machine/Indexer.lean ====
section
/-! DEFINITION. The palette-indexed pixel buffer packer (41_palette_indexer). -/

namespace Sys2Proof.Machine

/-! ## The quantizer port (R120, R121) -/

/-- The palette of an answer: PAL_LEN entries, 1 ≤ PAL_LEN ≤ 256 (R120; log 9). -/
def answerPalette (q : Quantization) : List Rgb := (q.first :: q.rest).take Config.paletteEntries

/-- A listed value of an association list. -/
def assocGet {α β : Type} [DecidableEq α] : List (α × β) → α → Option β
  | [], _ => none
  | (k, v) :: rest, a => if k = a then some v else assocGet rest a

/-- MAP of an answer: a total function from a colour to an index in [0, 255] (R120; log 9). -/
def answerMap (q : Quantization) (p : Rgb) : Byte := (assocGet q.known p).getD q.other

/-- Quantize: a function of the call's four operands alone (R121): an answer given as data, else the free function (log 8). -/
def quantizeCall (s : State) (c : QuantCall) : Quantization :=
  (assocGet s.quantTable c).getD (Config.quantize c)

/-! ## Re-formatting the frame (R122) -/

/-- The pixel at byte offset a of frame memory: red, green, blue (20_memory R61). -/
def framePixel (m : Memory) (a : Nat) : Rgb :=
  { r := frameRead m a, g := frameRead m (a + 1), b := frameRead m (a + 2) }

/-- PIX[y*W + x]: the submitted pixel where there is one, else black (R122). -/
def reformatPixel (m : Memory) (fw fh x y : Nat) : Rgb :=
  if x < fw ∧ y < fh then framePixel m (3 * (y * fw + x)) else { r := 0#8, g := 0#8, b := 0#8 }

/-- REFORMAT: crop or pad the fw × fh frame to w × h, row-major (R122). -/
def reformat (m : Memory) (fw fh w h : Nat) : List Rgb :=
  (List.range h).flatMap fun y => (List.range w).map fun x => reformatPixel m fw fh x y

/-! ## Indexing and the used bitmap (R123) -/

/-- USED: bit k is 1 exactly when some index is k; cleared at the start of every frame (R123). -/
def usedBitmap (indices : List Byte) : BitVec 256 :=
  indices.foldl (fun u k => u ||| (1#256 <<< k.toNat)) 0#256

/-! ## The transparent index (R125) -/

/-- The squared distance of two colours (R125). -/
def colourDistance (t p : Rgb) : Nat :=
  (((t.r.toNat : Int) - p.r.toNat) ^ 2 + ((t.g.toNat : Int) - p.g.toNat) ^ 2
    + ((t.b.toNat : Int) - p.b.toNat) ^ 2).toNat

/-- The loop of FIND_TRANSPARENT over the entries from index `i` on, with dmin and minpos so far (R125). -/
def scanNearest (t : Rgb) (used : BitVec 256) : List Rgb → Nat → Nat → Nat → Nat
  | [], _, _, minpos => minpos
  | p :: rest, i, dmin, minpos =>
    if used.getLsbD i = true ∧ colourDistance t p < dmin then
      scanNearest t used rest (i + 1) (colourDistance t p) i
    else scanNearest t used rest (i + 1) dmin minpos

/-- The index of the nearest used palette entry, the lowest on a tie, 0 when none is used (R125). -/
def nearestUsed (t : Rgb) (used : BitVec 256) (pal : List Rgb) : Nat :=
  scanNearest t used pal 0 (2 ^ 24) 0

/-- FIND_TRANSPARENT: TRANS_INDEX is written only when TRANSP.VALID = 1 (R125). -/
def findTransparent (s : State) : State :=
  if s.transp.valid then
    { s with
      transIndex := BitVec.ofNat 8 (nearestUsed s.transp.colour s.frame.used (s.frame.pal.take s.frame.palLen)) }
  else s

/-! ## Steps 2 and 3 of ADD_FRAME (43_container R182) -/

/-- REFORMAT, Quantize and INDEX_FRAME: the five per-frame memories are written (R120, R122, R123). -/
def indexFrame (fw fh : Nat) (s : State) : State :=
  let pix := reformat s.frameMem fw fh s.width.toNat s.height.toNat
  let q := quantizeCall s { pixels := pix, width := s.width, height := s.height, quality := s.quality }
  let indices := pix.map (answerMap q)
  { s with
    frame :=
      { pix := pix, pal := answerPalette q, palLen := (answerPalette q).length,
        used := usedBitmap indices, indexBuf := indices } }

end Sys2Proof.Machine
end

