-- ==== Sys2Proof/Machine/Lzw.lean ====
section
/-! DEFINITION. The LZW variable-width bitstream compressor with table reset (42_lzw). Each subroutine takes the unit and
answers the unit after it with the bytes it emitted, in order. -/

namespace Sys2Proof.Machine

/-- MAXCODE(n) = 2^n − 1 (R142). -/
def maxCode (n : Nat) : Nat := 2 ^ n - 1

/-- SB_COUNT (10_state R42). -/
def LzwUnit.sbCount (u : LzwUnit) : Nat := u.sbBuf.length

/-! ## Sub-block packetiser -/

/-- FLUSH_CHAR: emit the buffered sub-block with its length prefix (R157). -/
def flushChar (u : LzwUnit) : LzwUnit × List Byte :=
  if 0 < u.sbCount then ({ u with sbBuf := [] }, BitVec.ofNat 8 u.sbCount :: u.sbBuf) else (u, [])

/-- CHAR_OUT: add one byte to the sub-block being filled (R156). -/
def charOut (b : Byte) (u : LzwUnit) : LzwUnit × List Byte :=
  let u1 := { u with sbBuf := u.sbBuf ++ [b] }
  if Config.subblockMax ≤ u1.sbCount then flushChar u1 else (u1, [])

/-! ## Code output -/

/-- OUTPUT step 1: pack the code above the pending bits (R152). -/
def packCode (code : Nat) (u : LzwUnit) : LzwUnit :=
  { u with
    acc := (u.acc &&& (2 ^ u.accBits - 1)) ||| (code <<< u.accBits)
    accBits := u.accBits + u.nbits }

/-- `k` rounds of: move the low byte of ACC out, shift ACC, lower ACC_BITS by 8 but not below 0 (R153, R155). -/
def drainBytes : Nat → LzwUnit → LzwUnit × List Byte
  | 0, u => (u, [])
  | k + 1, u =>
    let r1 := charOut (BitVec.ofNat 8 (u.acc &&& 0xFF)) u
    let r2 := drainBytes k { r1.1 with acc := r1.1.acc >>> 8, accBits := r1.1.accBits - 8 }
    (r2.1, r1.2 ++ r2.2)

/-- OUTPUT step 2: while ACC_BITS ≥ 8, which is ACC_BITS div 8 rounds (R153). -/
def drainWhole (u : LzwUnit) : LzwUnit × List Byte := drainBytes (u.accBits / 8) u

/-- OUTPUT step 3: update the code width (R154). -/
def updateWidth (u : LzwUnit) : LzwUnit :=
  if u.maxcode < u.free ∨ u.clearFlg = true then
    if u.clearFlg then
      { u with nbits := u.initBits, maxcode := maxCode u.initBits, clearFlg := false }
    else
      { u with
        nbits := u.nbits + 1
        maxcode := if u.nbits + 1 = Config.maxBits then Config.maxMaxCode else maxCode (u.nbits + 1) }
  else u

/-- OUTPUT step 4, for EOI only: while ACC_BITS > 0, which is ACC_BITS div 8 rounded up rounds, then FLUSH_CHAR (R155). -/
def finalFlush (u : LzwUnit) : LzwUnit × List Byte :=
  let r1 := drainBytes ((u.accBits + 7) / 8) u
  let r2 := flushChar r1.1
  (r2.1, r1.2 ++ r2.2)

/-- OUTPUT(code) (R152 to R155). -/
def outputCode (code : Nat) (u : LzwUnit) : LzwUnit × List Byte :=
  let r1 := drainWhole (packCode code u)
  let u2 := updateWidth r1.1
  if code = u2.eoi then
    let r3 := finalFlush u2
    (r3.1, r1.2 ++ r3.2)
  else (u2, r1.2)

/-! ## The dictionary -/

/-- The key of the pair (LZW_ENT, c) (R146). -/
def pairKey (ent c : Nat) : Nat := (c <<< 12) + ent

/-- The primary slot of the pair (LZW_ENT, c) (R146). -/
def primarySlot (ent c : Nat) : Nat := (c <<< 4) ^^^ ent

/-- What LOOKUP answers (R146, R147). -/
inductive Lookup where
  | hit (slot code : Nat)
  | miss (slot : Nat)
deriving DecidableEq, Repr

/-- disp of the secondary probe (R147; 90_conflicts C2). -/
def probeStep (i : Nat) : Nat := if i = 0 then 1 else Config.hsize - i

/-- The slot after `i`: i − disp, plus HSIZE when that is negative (R147). -/
def nextSlot (i disp : Nat) : Nat := if i < disp then i + Config.hsize - disp else i - disp

/-- CODETAB[i] (10_state R40). -/
def codeAt (u : LzwUnit) (i : Nat) : Nat := (cellsGet u.codetab i).getD 0

/-- The secondary probe, at most `fuel` slots (R147). HSIZE slots suffice, because an EMPTY slot is always reached; running
out is unreachable (log 15). -/
def secondaryProbe (u : LzwUnit) (key disp : Nat) : Nat → Nat → Lookup
  | 0, i => .miss i
  | fuel + 1, i =>
    match cellsGet u.htab (nextSlot i disp) with
    | none => .miss (nextSlot i disp)
    | some k =>
      if k = key then .hit (nextSlot i disp) (codeAt u (nextSlot i disp))
      else secondaryProbe u key disp fuel (nextSlot i disp)

/-- LOOKUP(LZW_ENT, c) (R146, R147). -/
def lookupPair (u : LzwUnit) (c : Nat) : Lookup :=
  match cellsGet u.htab (primarySlot u.ent c) with
  | none => .miss (primarySlot u.ent c)
  | some k =>
    if k = pairKey u.ent c then .hit (primarySlot u.ent c) (codeAt u (primarySlot u.ent c))
    else secondaryProbe u (pairKey u.ent c) (probeStep (primarySlot u.ent c)) Config.hsize (primarySlot u.ent c)

/-- INSERT(i, key): assign the next code (R149). -/
def insertPair (i key : Nat) (u : LzwUnit) : LzwUnit :=
  { u with
    codetab := cellsPut u.codetab i u.free
    free := u.free + 1
    htab := cellsPut u.htab i key }

/-- CL_BLOCK: wipe the dictionary and emit the reset Clear at the current width (R150). -/
def clearBlock (u : LzwUnit) : LzwUnit × List Byte :=
  outputCode u.clear { u with htab := [], free := u.clear + 2, clearFlg := true }

/-- MISS(i, c): emit the match so far, start a new string, then insert the pair or reset the table (R148). -/
def missPair (i c : Nat) (u : LzwUnit) : LzwUnit × List Byte :=
  let key := pairKey u.ent c
  let r1 := outputCode u.ent u
  let u2 := { r1.1 with ent := c }
  if u2.free < Config.maxMaxCode then (insertPair i key u2, r1.2)
  else
    let r3 := clearBlock u2
    (r3.1, r1.2 ++ r3.2)

/-! ## Compression -/

/-- LZW_INIT (R143): every scalar but LZW_ENT is written and every slot of HTAB is EMPTY. -/
def lzwInit (initBits n : Nat) (u : LzwUnit) : LzwUnit :=
  { u with
    initBits := initBits, clearFlg := false, nbits := initBits, maxcode := maxCode initBits
    clear := 1 <<< (initBits - 1), eoi := (1 <<< (initBits - 1)) + 1, free := (1 <<< (initBits - 1)) + 2
    sbBuf := [], acc := 0, accBits := 0, n := n, curPix := 0, htab := [] }

/-- One round of the main loop: extend the string or miss (R145). -/
def compressPixel (c : Nat) (u : LzwUnit) : LzwUnit × List Byte :=
  match lookupPair u c with
  | .hit _ code => ({ u with ent := code }, [])
  | .miss i => missPair i c u

/-- The main loop over the pixels NextPixel still has to return; LZW_CURPIX advances by one for each (R144, R145). -/
def compressPixels : List Byte → LzwUnit → LzwUnit × List Byte
  | [], u => (u, [])
  | c :: rest, u =>
    let r1 := compressPixel c.toNat { u with curPix := u.curPix + 1 }
    let r2 := compressPixels rest r1.1
    (r2.1, r1.2 ++ r2.2)

/-- END: the last string, then EOI, whose OUTPUT flushes (R151). -/
def compressEnd (u : LzwUnit) : LzwUnit × List Byte :=
  let r1 := outputCode u.ent u
  let r2 := outputCode r1.1.eoi r1.1
  (r2.1, r1.2 ++ r2.2)

/-- LZW_COMPRESS(init_bits) on INDEX_BUF (R143 to R151). INDEX_BUF is never empty in LZWENC, because N ≥ 1 (R140; log 16). -/
def lzwCompress (initBits : Nat) (indices : List Byte) (u : LzwUnit) : LzwUnit × List Byte :=
  let u0 := lzwInit initBits indices.length u
  match indices with
  | [] => (u0, [])
  | first :: rest =>
    let r1 := outputCode u0.clear { u0 with ent := first.toNat, curPix := 1 }
    let r2 := compressPixels rest r1.1
    let r3 := compressEnd r2.1
    (r3.1, r1.2 ++ r2.2 ++ r3.2)

/-- mcs = max(2, cd) (R140; 90_conflicts C1). -/
def minCodeSize (cd : Nat) : Nat := max 2 cd

/-- LZW_ENCODE: the minimum-code-size byte, the sub-blocks, the zero-length terminator (R140). -/
def lzwEncode (cd : Nat) (indices : List Byte) (u : LzwUnit) : LzwUnit × List Byte :=
  let r := lzwCompress (minCodeSize cd + 1) indices u
  (r.1, BitVec.ofNat 8 (minCodeSize cd) :: r.2 ++ [0x00#8])

end Sys2Proof.Machine
end

