-- ==== Sys2Proof/Machine/Container.lean ====
section
/-! DEFINITION. The frame container block serializer (43_container): the block writers and the commands START, ADD_FRAME
and FINISH. -/

namespace Sys2Proof.Machine

/-! ## Block writers (R188 to R197) -/

/-- EmitLE16(v): the low 16 bits of v, low byte first (R196). -/
def emitLE16 (v : Nat) : List Byte := [BitVec.ofNat 8 v, BitVec.ofNat 8 (v >>> 8)]

/-- WRITE_SIGNATURE: "GIF89a" (R188). -/
def signatureBytes : List Byte := [0x47#8, 0x49#8, 0x46#8, 0x38#8, 0x39#8, 0x61#8]

/-- The packed byte of the screen descriptor: global palette 1, colour resolution 7, sort 0, PAL_SIZE_CODE (R189). -/
def lsdPacked : Byte := 1#1 ++ 7#3 ++ 0#1 ++ BitVec.ofNat 3 Config.palSizeCode

/-- WRITE_LSD: the logical screen descriptor (R189). -/
def lsdBytes (s : State) : List Byte :=
  emitLE16 s.width.toNat ++ emitLE16 s.height.toNat ++ [lsdPacked, 0x00#8, 0x00#8]

/-- The three bytes of a palette entry: red, green, blue (R190, 20_memory R64). -/
def rgbBytes (p : Rgb) : List Byte := [p.r, p.g, p.b]

/-- WRITE_PALETTE: PAL_LEN entries, zero-padded to 3·2^(PAL_SIZE_CODE+1) = 768 bytes (R190). -/
def paletteBytes (f : FrameUnit) : List Byte :=
  (f.pal.take f.palLen).flatMap rgbBytes
    ++ List.replicate (3 * 2 ^ (Config.palSizeCode + 1) - 3 * f.palLen) 0x00#8

/-- WRITE_LOOP_EXT: the looping extension with the low 16 bits of REPEAT (R191). -/
def loopExtBytes (s : State) : List Byte :=
  [0x21#8, 0xFF#8, 0x0B#8]
    ++ [0x4E#8, 0x45#8, 0x54#8, 0x53#8, 0x43#8, 0x41#8, 0x50#8, 0x45#8, 0x32#8, 0x2E#8, 0x30#8]
    ++ [0x03#8, 0x01#8] ++ emitLE16 s.repeatCount.toNat ++ [0x00#8]

/-- The disposal method of the control block (R193). -/
def disposalMethod (s : State) : BitVec 3 :=
  if 0 ≤ s.dispose.toInt then s.dispose.extractLsb' 0 3
  else if s.transp.valid then 2#3
  else 0#3

/-- The packed byte of the control block: reserved 0, disposal [4:2], user input 0, transparency [0] (R192). -/
def gcePacked (s : State) : Byte :=
  0#3 ++ disposalMethod s ++ 0#1 ++ BitVec.ofBool s.transp.valid

/-- WRITE_GCE: the graphic-control extension (R192). -/
def gceBytes (s : State) : List Byte :=
  [0x21#8, 0xF9#8, 0x04#8, gcePacked s] ++ emitLE16 s.delayCs.toNat ++ [s.transIndex, 0x00#8]

/-- The packed byte of the image descriptor: a local palette on every frame but the first (R194). -/
def imageDescPacked (s : State) : Byte :=
  if s.lifecycle = .startedFirst then 0x00#8 else 0x87#8

/-- WRITE_IMAGE_DESC: the image descriptor (R194). -/
def imageDescBytes (s : State) : List Byte :=
  [0x2C#8] ++ emitLE16 0 ++ emitLE16 0 ++ emitLE16 s.width.toNat ++ emitLE16 s.height.toNat ++ [imageDescPacked s]

/-- WRITE_TRAILER (R197). -/
def trailerBytes : List Byte := [Config.trailer]

/-- Step 4 of ADD_FRAME, first frame only: screen descriptor, global palette, and the loop extension when REPEAT ≥ 0 (R182). -/
def firstFrameBytes (s : State) : List Byte :=
  if s.lifecycle = .startedFirst then
    lsdBytes s ++ paletteBytes s.frame ++ (if 0 ≤ s.repeatCount.toInt then loopExtBytes s else [])
  else []

/-- The local palette of step 6: written by every frame but the first (R182). -/
def localPaletteBytes (s : State) : List Byte :=
  if s.lifecycle = .startedSubseq then paletteBytes s.frame else []

/-- Steps 4 to 7 of ADD_FRAME in their order, with the LZW data of step 7 (R182). -/
def frameBytes (s : State) (data : List Byte) : List Byte :=
  firstFrameBytes s ++ gceBytes s ++ imageDescBytes s ++ localPaletteBytes s ++ data

/-! ## START (R181) -/

/-- The operations of START before the signature: SinkOpen when the session opens the sink itself (R181). -/
def openOps (own : Bool) : List SinkOp := if own then [.sinkOpen] else []

/-- START once its checks have passed: open, then OWN_SINK, then the signature, then STARTED_FIRST (R181). -/
def startSession (own : Bool) (s0 s : State) : State :=
  offerThen (.start own) s0 s (openOps own)
    (fun s1 =>
      offerThen (.start own) s0 { s1 with ownSink := own } (sinkWrites signatureBytes)
        (fun s2 => finishCmd .ok { s2 with lifecycle := .startedFirst })
        (raiseCause .sinkError))
    (raiseCause .sinkError)

/-- START: begin a session and write the format signature (R181). -/
def execStart (own : Bool) (s : State) : Host.Outcome State Fault Refusal :=
  if s.started then .next (raiseCause .precondition s)
  else if own = false ∧ s.sink.present = false then .next (raiseCause .precondition (clearSticky s))
  else .next (startSession own s (clearSticky s))

/-! ## ADD_FRAME (R182 to R185) -/

/-- The session size an ADD_FRAME will use: the fixed one, else the frame's own (R182). -/
def sessionPixels (s : State) : Nat :=
  if s.sizeSet then s.width.toNat * s.height.toNat else (opFw s).toNat * (opFh s).toNat

/-- The conditions under which ADD_FRAME raises Precondition, in their order (R182, 60 R241). -/
def addFrameRefused (s : State) : Bool :=
  !s.started || (!opPresent s || opFw s == 0#16 || opFh s == 0#16)
    || decide (s.maxPixels < (opFw s).toNat * (opFh s).toNat) || decide (s.maxPixels < sessionPixels s)

/-- ADOPT_SIZE when SIZE_SET = 0: fix the session's dimensions from the first frame (R183). -/
def adoptSize (fw fh : Half) (s : State) : State :=
  if s.sizeSet then s else { s with width := fw, height := fh, sizeSet := true }

/-- Steps 1 to 3 of ADD_FRAME: size, re-format, quantize, index, transparent index (R182). -/
def prepareFrame (s : State) : State :=
  findTransparent (indexFrame (opFw s).toNat (opFh s).toNat (adoptSize (opFw s) (opFh s) s))

/-- Step 7 seen from the unit's state: the LZW unit after the frame's compression, and its bytes (R195). -/
def compressFrame (s : State) : LzwUnit × List Byte := lzwEncode Config.colorDepth s.frame.indexBuf s.lzw

/-- COMPLETE_FRAME (R184). -/
def completeFrame (s : State) : State :=
  finishCmd .ok (if s.lifecycle = .startedFirst then { s with lifecycle := .startedSubseq } else s)

/-- Steps 4 to 8 of ADD_FRAME on the prepared frame: the bytes are offered in order; a failed one ends the command (R185). -/
def submitFrame (s0 s : State) : State :=
  offerThen .addFrame s0 { s with lzw := (compressFrame s).1 }
    (sinkWrites (frameBytes s (compressFrame s).2)) completeFrame (raiseCause .sinkError)

/-- ADD_FRAME: quantize, index and serialise one frame (R182). -/
def execAddFrame (s : State) : Host.Outcome State Fault Refusal :=
  if addFrameRefused s then .next (raiseCause .precondition s)
  else .next (submitFrame s (prepareFrame s))

/-! ## FINISH (R186, R187) -/

/-- The operations of FINISH: trailer, flush, and close when the session opened the sink (R186). -/
def finishOps (own : Bool) : List SinkOp :=
  sinkWrites trailerBytes ++ [.sinkFlush] ++ (if own then [.sinkClose] else [])

/-- FINISH once its check has passed: the session is reset whether or not the sink failed (R186). -/
def finishSession (s : State) : State :=
  offerThen .finish s { s with lifecycle := .finished } (finishOps s.ownSink)
    (fun s1 => finishCmd .ok (sessionReset s1))
    (fun s1 => raiseCause .sinkError (sessionReset s1))

/-- FINISH: write the trailer and end the session (R186). -/
def execFinish (s : State) : Host.Outcome State Fault Refusal :=
  if s.started then .next (finishSession s) else .next (raiseCause .precondition s)

end Sys2Proof.Machine
end

