-- ==== Sys2Proof/Machine/Configure.lean ====
section
/-! DEFINITION. The configuration commands (44_config). Each completes with RESULT = OK and issues no sink operation. -/

namespace Sys2Proof.Machine

/-- A negative value stands for −1, "none" (44_config R221, R222). -/
def clampNegative (w : Word) : Word := if 0 ≤ w.toInt then w else 0xFFFFFFFF#32

/-- SET_DELAY: hundredths of a second, halves up, modulo 2^16 (R220). -/
def execSetDelay (s : State) : Host.Outcome State Fault Refusal :=
  .next (finishCmd .ok { s with delayCs := BitVec.ofNat 16 ((opMs s + 5) / 10) })

/-- SET_REPEAT (R221). -/
def execSetRepeat (s : State) : Host.Outcome State Fault Refusal :=
  .next (finishCmd .ok { s with repeatCount := clampNegative s.arg0 })

/-- SET_DISPOSE (R222). -/
def execSetDispose (s : State) : Host.Outcome State Fault Refusal :=
  .next (finishCmd .ok { s with dispose := clampNegative s.arg0 })

/-- SET_TRANSPARENT (R223). -/
def execSetTransparent (s : State) : Host.Outcome State Fault Refusal :=
  .next (finishCmd .ok { s with transp := { valid := true, colour := opColour s } })

/-- CLEAR_TRANSPARENT: TRANSP is 0; TRANS_INDEX keeps its value (R224). -/
def execClearTransparent (s : State) : Host.Outcome State Fault Refusal :=
  .next (finishCmd .ok { s with transp := { valid := false, colour := { r := 0#8, g := 0#8, b := 0#8 } } })

/-- SET_SIZE: ignored with OK in STARTED_SUBSEQ; a zero dimension takes its default (R225). -/
def execSetSize (s : State) : Host.Outcome State Fault Refusal :=
  if s.lifecycle = .startedSubseq then .next (finishCmd .ok s)
  else
    .next (finishCmd .ok
      { s with
        width := if opW s = 0#16 then Config.defaultWidth else opW s
        height := if opH s = 0#16 then Config.defaultHeight else opH s
        sizeSet := true })

/-- SET_QUALITY: values below 1 become 1 (R226). -/
def execSetQuality (s : State) : Host.Outcome State Fault Refusal :=
  .next (finishCmd .ok { s with quality := if opSigned s < 1 then 1#32 else s.arg0 })

end Sys2Proof.Machine
end

