-- ==== Sys2Proof/Machine/Dispatch.lean ====
section
/-! DEFINITION. One arm per command (30_encoding R91). -/

namespace Sys2Proof.Machine

def exec (i : Instr) (s : State) : Host.Outcome State Fault Refusal :=
  match i with
  | .start own => Sys2Proof.Machine.execStart own s
  | .addFrame => Sys2Proof.Machine.execAddFrame s
  | .finish => Sys2Proof.Machine.execFinish s
  | .setDelay => Sys2Proof.Machine.execSetDelay s
  | .setRepeat => Sys2Proof.Machine.execSetRepeat s
  | .setDispose => Sys2Proof.Machine.execSetDispose s
  | .setTransparent => Sys2Proof.Machine.execSetTransparent s
  | .clearTransparent => Sys2Proof.Machine.execClearTransparent s
  | .setSize => Sys2Proof.Machine.execSetSize s
  | .setQuality => Sys2Proof.Machine.execSetQuality s

end Sys2Proof.Machine
end

