-- ==== Sys2Proof/Machine/HostPort.lean ====
section
/-! DEFINITION. What the outside world does to the block: host register accesses (10_state R22 to R35), frame-producer
writes (20_memory R61, R74), sink answers (20_memory R66), SINK_PRESENT (00_scope R9) and reset (70 R260, R261). -/

namespace Sys2Proof.Machine

/-! ## The register file (10_state R22) -/

/-- The twelve host registers (10_state R22). -/
inductive HostReg where
  | cmd
  | arg0
  | arg1
  | status
  | delay
  | repeatReg
  | dispose
  | transp
  | size
  | quality
  | transIndex
  | session
deriving DecidableEq, Repr

/-- The register at a byte offset; none is mapped above 0x2C (10_state R22, R35). -/
def hostRegAt (offset : Nat) : Option HostReg :=
  match offset with
  | 0x00 => some .cmd
  | 0x04 => some .arg0
  | 0x08 => some .arg1
  | 0x0C => some .status
  | 0x10 => some .delay
  | 0x14 => some .repeatReg
  | 0x18 => some .dispose
  | 0x1C => some .transp
  | 0x20 => some .size
  | 0x24 => some .quality
  | 0x28 => some .transIndex
  | 0x2C => some .session
  | _ => none

/-- The value a register reads (10_state R23 to R34). CMD reads 0 (R24). -/
def readReg (r : HostReg) (s : State) : Word :=
  match r with
  | .cmd => 0#32
  | .arg0 => s.arg0
  | .arg1 => s.arg1
  | .status => statusWord s
  | .delay => delayWord s
  | .repeatReg => s.repeatCount
  | .dispose => s.dispose
  | .transp => transpWord s
  | .size => sizeWord s
  | .quality => s.quality
  | .transIndex => transIndexWord s
  | .session => sessionWord s

/-- The value read at an offset: an unmapped one reads 0 (10_state R35). -/
def readOffset (offset : Nat) (s : State) : Word :=
  match hostRegAt offset with
  | some r => readReg r s
  | none => 0#32

/-- A whole 32-bit word at a multiple of 4; any other access is refused (20_memory R63). -/
def accessLegal (size offset : Nat) : Bool := size == 4 && offset % 4 == 0

/-- A host read: no side effect on the block (20_memory R68). -/
def hostRead (size offset : Nat) (s : State) : Host.Outcome State Fault Refusal :=
  if accessLegal size offset then .next { s with readData := readOffset offset s }
  else .refused .badAccess

/-! ## Commands -/

/-- A CMD write while BUSY = 1 is dropped and sets OVERRUN (60 R244; log 6). -/
def dropCommand (r : Running) (s : State) : State :=
  { s with overrun := true, running := some { r with dropped := true } }

/-- A CMD write: dropped while BUSY, else one command (10_state R24, 60 R243 to R245). -/
def issueCommand (w : Word) (s : State) : Host.Outcome State Fault Refusal :=
  match s.running with
  | some r => .next (dropCommand r s)
  | none =>
    match decode w with
    | .ok i => exec i s
    | .error _ => .next (raiseCause .illegalCommand s)

/-- A host write: CMD issues a command, ARG0 and ARG1 take the word, every other offset ignores it (10_state R24, R25, R35). -/
def hostWrite (size offset : Nat) (value : Word) (s : State) : Host.Outcome State Fault Refusal :=
  if accessLegal size offset then
    match hostRegAt offset with
    | some .cmd => issueCommand value s
    | some .arg0 => .next { s with arg0 := value }
    | some .arg1 => .next { s with arg1 := value }
    | _ => .next s
  else .refused .badAccess

/-! ## Frame memory -/

/-- STATUS.BUSY = 1 for an ADD_FRAME (70 R265). -/
def busyForAddFrame (s : State) : Bool :=
  match s.running with
  | some r => decide (r.instr = .addFrame)
  | none => false

/-- A frame-producer write: FRAME_HAZARD while an ADD_FRAME runs (20_memory R74, 70 R265); outside frame memory there is
no byte to write (log 11). -/
def producerWrite (a : Nat) (v : Byte) (s : State) : Host.Outcome State Fault Refusal :=
  if frameBytesCapacity s ≤ a then .fault .frameOutOfRange
  else if busyForAddFrame s then .fault .frameHazard
  else .next (frameStore a v s)

/-! ## The sink's answers -/

/-- The state in which the running command was accepted, with the answers it has had and those it has now: the command is
one transaction, so it is run again from its acceptance with one more stretch of answers (00_scope R7; log 4). -/
def acceptedState (r : Running) (s : State) : State :=
  { s with
    arg0 := r.arg0, arg1 := r.arg1, running := none
    sink :=
      { present := r.present
        answers := List.replicate r.answered SinkAnswer.ok ++ s.sink.answers
        log := s.sink.log.drop r.answered } }

/-- What the host did meanwhile is put back: ARG0 and ARG1 (70 R267), the SINK_PRESENT level, and OVERRUN if a CMD write
was dropped (60 R244; log 6). -/
def restoreMeanwhile (r : Running) (s t : State) : State :=
  { t with
    arg0 := s.arg0, arg1 := s.arg1
    overrun := t.overrun || r.dropped
    running := t.running.map (fun r' => { r' with dropped := r.dropped })
    sink := { t.sink with present := s.sink.present } }

/-- The running command goes on with the answers that are there now. -/
def resumeCommand (r : Running) (s : State) : Host.Outcome State Fault Refusal :=
  match exec r.instr (acceptedState r s) with
  | .next t => .next (restoreMeanwhile r s t)
  | .fault f => .fault f
  | .refused f => .refused f

/-- The sink gives further answers: they queue behind those not yet used, and a waiting command goes on (20_memory R66). -/
def receiveAnswers (answers : List SinkAnswer) (s : State) : Host.Outcome State Fault Refusal :=
  let s1 := { s with sink := { s.sink with answers := s.sink.answers ++ answers } }
  match s1.running with
  | some r => resumeCommand r s1
  | none => .next s1

/-! ## One input -/

/-- The effect of one input (log 2). -/
def takeInput (input : HostInput) (s : State) : Host.Outcome State Fault Refusal :=
  match input with
  | .regWrite size offset value => hostWrite size offset value s
  | .regRead size offset => hostRead size offset s
  | .frameWrite offset value => producerWrite offset value s
  | .sinkAnswers answers => receiveAnswers answers s
  | .sinkPresent level => .next { s with sink := { s.sink with present := level } }
  | .reset => .next (resetBlock s)

/-- No input is left: an idle block keeps all its state (60 R255; log 18); a command that waits for the sink is stuck
(SINK_HANG, 60 R249, 70 R268; log 3). -/
def idleStep (s : State) : Host.Outcome State Fault Refusal :=
  if s.busy then .fault .sinkHang else .next s

/-- The host input that writes `w` to CMD. -/
def cmdWrite (w : Word) : HostInput := .regWrite 4 0x00 w

end Sys2Proof.Machine
end

