-- ==== Sys2Proof/Machine/Step.lean ====
section
/-! DEFINITION. One step of the machine: it takes the next input (log 2). LZWENC has no program counter and fetches nothing;
a command arrives as a CMD write (10_state R21). -/

namespace Sys2Proof.Machine

/-- One step: the next input takes effect; a command it issues runs in the same step (00_scope R7, 70 R269; log 1). -/
def step (s : State) : Host.Outcome State Fault Refusal :=
  match s.inputs with
  | [] => idleStep s
  | input :: rest => takeInput input { s with inputs := rest }

/-- `s` with no command running and the command word `w` as the next CMD write, so that the very next step runs it (log 2). -/
def State.withFetchWord (s : State) (nbits w : Nat) : State :=
  { s with running := none, inputs := cmdWrite (BitVec.ofNat 32 (w % 2 ^ nbits)) :: s.inputs }

end Sys2Proof.Machine
end

