-- ==== Sys2Proof/Machine/Assembler.lean ====
section
/-! DEFINITION. The assembly statements and pseudo-instructions (30_encoding R97, R98): what each expands to, and how a line
of text is read. -/

namespace Sys2Proof.Machine

/-- One statement of a program (30_encoding R97, R98). -/
inductive AsmStmt where
  | start (own : Bool)
  | addFrame (fw fh : Nat) (present : Bool)
  | finish
  | setDelay (ms : Nat)
  | setRepeat (n : Int)
  | setDispose (code : Int)
  | setTransparent (rgb : Nat)
  | clearTransparent
  | setSize (w h : Nat)
  | setQuality (q : Int)
  /-- `.word v`: the single write CMD ← v. -/
  | word (v : Nat)
  | wait
  | expect (code : Nat)
  | frame (fw fh : Nat) (pixels : List Rgb)
deriving DecidableEq, Repr

/-- A write of ARG0. -/
def arg0Write (w : Word) : HostInput := .regWrite 4 0x04 w
/-- A write of ARG1. -/
def arg1Write (w : Word) : HostInput := .regWrite 4 0x08 w
/-- A read of STATUS. -/
def statusRead : HostInput := .regRead 4 0x0C

/-- `{hi[15:0], lo[15:0]}` (30_encoding R97). -/
def pairWord (hi lo : Nat) : Word := BitVec.ofNat 16 hi ++ BitVec.ofNat 16 lo

/-- WAIT: STATUS is read again and again until BUSY reads 0; `polls` is how many reads found BUSY = 1 before the last one
(30_encoding R98; log 23). -/
def waitReads (polls : Nat) : List HostInput := List.replicate (polls + 1) statusRead

/-- The frame producer's writes of FRAME, from offset 0, row-major (30_encoding R98). -/
def frameWrites (pixels : List Rgb) : List HostInput :=
  (pixels.flatMap rgbBytes).zipIdx.map fun x => .frameWrite x.2 x.1

/-- The register writes of a command statement: ARG0, then ARG1, then CMD (30_encoding R97). The truncation of n, code and q
is R97's own, and so are the 16-bit fields of a pair. DESIGN CHOICE, which R97 leaves open: ms and v of 2^32 or more and rgb
above 0xFFFFFF lose their upper bits; the line is not rejected (log 24). -/
def asmWrites : AsmStmt → List HostInput
  | .start own => [cmdWrite (if own then 0x00000101#32 else 0x00000001#32)]
  | .addFrame fw fh present =>
    [arg0Write (pairWord fh fw), arg1Write (if present then 1#32 else 0#32), cmdWrite 0x00000002#32]
  | .finish => [cmdWrite 0x00000003#32]
  | .setDelay ms => [arg0Write (BitVec.ofNat 32 ms), cmdWrite 0x00000010#32]
  | .setRepeat n => [arg0Write (BitVec.ofInt 32 n), cmdWrite 0x00000011#32]
  | .setDispose code => [arg0Write (BitVec.ofInt 32 code), cmdWrite 0x00000012#32]
  | .setTransparent rgb => [arg0Write (0#8 ++ BitVec.ofNat 24 rgb), cmdWrite 0x00000013#32]
  | .clearTransparent => [cmdWrite 0x00000014#32]
  | .setSize w h => [arg0Write (pairWord h w), cmdWrite 0x00000015#32]
  | .setQuality q => [arg0Write (BitVec.ofInt 32 q), cmdWrite 0x00000016#32]
  | .word v => [cmdWrite (BitVec.ofNat 32 v)]
  | .wait => []
  | .expect _ => []
  | .frame _ _ _ => []

/-- What a statement expands to; a command statement ends with a WAIT (30_encoding R97, R98). -/
def asmExpand (polls : Nat) : AsmStmt → List HostInput
  | .wait => waitReads polls
  | .expect _ => [statusRead]
  | .frame _ _ pixels => frameWrites pixels
  | stmt => asmWrites stmt ++ waitReads polls

/-- EXPECT code: the STATUS word read has that RESULT (30_encoding R98). -/
def expectHolds (code : Nat) (status : Word) : Bool := status.toNat / 16 % 8 == code

/-! ## Reading a line of text (30_encoding R97) -/

/-- A token of a line. -/
inductive AsmToken where
  | text (chars : List Char)
  | comma
  | openBrace
  | closeBrace
  | openParen
  | closeParen
deriving DecidableEq, Repr

/-- A separator character as a token. -/
def punctuation (c : Char) : Option AsmToken :=
  if c = ',' then some .comma
  else if c = '(' then some .openParen
  else if c = ')' then some .closeParen
  else if c.toNat = 123 then some .openBrace
  else if c.toNat = 125 then some .closeBrace
  else none

/-- The text read so far as a token, if there is any. -/
def flushText (acc : List Char) (rest : List AsmToken) : List AsmToken :=
  if acc.isEmpty then rest else .text acc.reverse :: rest

/-- The tokens of a line up to `;`, with the text read so far reversed in `acc`. -/
def asmTokens : List Char → List Char → List AsmToken
  | acc, [] => flushText acc []
  | acc, c :: cs =>
    if c = ';' then flushText acc []
    else if c.isWhitespace then flushText acc (asmTokens [] cs)
    else
      match punctuation c with
      | some t => flushText acc (t :: asmTokens [] cs)
      | none => asmTokens (c :: acc) cs

/-- A digit's value in base 16. -/
def digitValue (c : Char) : Option Nat :=
  let n := c.toNat
  if 48 ≤ n ∧ n ≤ 57 then some (n - 48)
  else if 65 ≤ n ∧ n ≤ 70 then some (n - 55)
  else if 97 ≤ n ∧ n ≤ 102 then some (n - 87)
  else none

/-- The digits of a numeral in a base, most significant first. -/
def readDigits (base : Nat) : Nat → List Char → Option Nat
  | acc, [] => some acc
  | acc, c :: cs =>
    match digitValue c with
    | some d => if d < base then readDigits base (base * acc + d) cs else none
    | none => none

/-- A number: decimal, or hexadecimal with 0x (30_encoding R97). -/
def readNat : List Char → Option Nat
  | [] => none
  | ['0', 'x'] => none
  | '0' :: 'x' :: cs => readDigits 16 0 cs
  | cs => readDigits 10 0 cs

/-- A number with an optional minus sign. -/
def readInt : List Char → Option Int
  | '-' :: cs => (readNat cs).map fun n => -(n : Int)
  | cs => (readNat cs).map Int.ofNat

/-- One `(r,g,b)` triple (30_encoding R98). DESIGN CHOICE, which R98 leaves open: a component above 255 makes the line no
statement (log 25). -/
def readTriple (r g b : List Char) : Option Rgb :=
  match readNat r, readNat g, readNat b with
  | some r, some g, some b =>
    if r < 256 ∧ g < 256 ∧ b < 256 then
      some { r := BitVec.ofNat 8 r, g := BitVec.ofNat 8 g, b := BitVec.ofNat 8 b }
    else none
  | _, _, _ => none

/-- The triples of FRAME after the opening brace, up to the closing brace that ends the line. -/
def readTriples : List AsmToken → Option (List Rgb)
  | [.closeBrace] => some []
  | .openParen :: .text r :: .comma :: .text g :: .comma :: .text b :: .closeParen :: .comma :: rest =>
    match readTriple r g b, readTriples rest with
    | some p, some ps => if ps.isEmpty then none else some (p :: ps)
    | _, _ => none
  | [.openParen, .text r, .comma, .text g, .comma, .text b, .closeParen, .closeBrace] =>
    (readTriple r g b).map fun p => [p]
  | _ => none

/-- The operand tokens of a statement, by its mnemonic (30_encoding R97, R98). DESIGN CHOICE, which R98 leaves open: a FRAME that
does not list fw·fh triples is no statement (log 25). -/
def readStmt (mnemonic : String) (operands : List AsmToken) : Option AsmStmt :=
  match mnemonic, operands with
  | "START", [] => some (.start false)
  | "START", [.text own] => if own = "own".toList then some (.start true) else none
  | "ADD_FRAME", [.text fw, .comma, .text fh] =>
    match readNat fw, readNat fh with
    | some fw, some fh => some (.addFrame fw fh true)
    | _, _ => none
  | "ADD_FRAME", [.text fw, .comma, .text fh, .comma, .text absent] =>
    match readNat fw, readNat fh with
    | some fw, some fh => if absent = "absent".toList then some (.addFrame fw fh false) else none
    | _, _ => none
  | "FINISH", [] => some .finish
  | "SET_DELAY", [.text ms] => (readNat ms).map .setDelay
  | "SET_REPEAT", [.text n] => (readInt n).map .setRepeat
  | "SET_DISPOSE", [.text code] => (readInt code).map .setDispose
  | "SET_TRANSPARENT", [.text rgb] => (readNat rgb).map .setTransparent
  | "CLEAR_TRANSPARENT", [] => some .clearTransparent
  | "SET_SIZE", [.text w, .comma, .text h] =>
    match readNat w, readNat h with
    | some w, some h => some (.setSize w h)
    | _, _ => none
  | "SET_QUALITY", [.text q] => (readInt q).map .setQuality
  | ".word", [.text v] => (readNat v).map .word
  | "WAIT", [] => some .wait
  | "EXPECT", [.text code] => (readNat code).map .expect
  | "FRAME", .text fw :: .comma :: .text fh :: .comma :: .openBrace :: triples =>
    match readNat fw, readNat fh, readTriples triples with
    | some fw, some fh, some ps => if ps.length = fw * fh then some (.frame fw fh ps) else none
    | _, _, _ => none
  | _, _ => none

/-- One line: blank, a statement, or not a statement (30_encoding R97). -/
def readLine (line : String) : Option (List AsmStmt) :=
  match asmTokens [] line.toList with
  | [] => some []
  | .text m :: operands => (readStmt (String.ofList m) operands).map fun stmt => [stmt]
  | _ => none

/-- A program's lines as statements, none if a line is not one. -/
def readProgram : List String → Option (List AsmStmt)
  | [] => some []
  | line :: lines =>
    match readLine line, readProgram lines with
    | some stmts, some rest => some (stmts ++ rest)
    | _, _ => none

end Sys2Proof.Machine
end

