-- ==== Sys2Proof/Safety.lean ====
section
/-! DEFINITION. The invariants a run keeps, and the vocabulary of the claims: what the host sees, runs of commands, the
shape of a session's stream (43_container R198). -/

namespace Sys2Proof.Machine

/-! ## Invariants -/

/-- A signed register holds −1 or a value of at least 0 (10_state R28, R29). -/
def minusOneOrMore (w : Word) : Prop := w = 0xFFFFFFFF#32 ∨ 0 ≤ w.toInt

/-- What holds of the registers, frame memory and the running command in every run. -/
structure State.Inv (s : State) : Prop where
  /-- frame memory keeps its canonical form -/
  memoryWf : Memory.wf s.frameMem
  /-- every byte of it has an offset below 3·MAX_PIXELS (20_memory R60) -/
  memoryInside : ∀ c ∈ s.frameMem, c.1 < frameBytesCapacity s
  /-- MAX_PIXELS is at least 1 (00_scope R9) -/
  capacity : 1 ≤ s.maxPixels
  /-- REPEAT is −1 or at least 0 (10_state R28) -/
  repeatLegal : minusOneOrMore s.repeatCount
  /-- DISPOSE is −1 or at least 0 (10_state R29) -/
  disposeLegal : minusOneOrMore s.dispose
  /-- QUALITY is at least 1 (10_state R32) -/
  qualityLegal : 1 ≤ s.quality.toInt
  /-- TRANSP is 0 when VALID is 0 (10_state R30, 44_config R224) -/
  transpLegal : s.transp.valid = false → s.transp.colour = { r := 0#8, g := 0#8, b := 0#8 }
  /-- fixed dimensions are not 0 (43_container R183, 44_config R225) -/
  sizeFixed : s.sizeSet = true → s.width ≠ 0#16 ∧ s.height ≠ 0#16
  /-- dimensions not yet fixed read 0 (10_state R31) -/
  sizeOpen : s.sizeSet = false → s.width = 0#16 ∧ s.height = 0#16
  /-- after the first frame the dimensions are fixed and fit (10_state R31, 43_container R182) -/
  subseqSized : s.lifecycle = .startedSubseq →
    s.sizeSet = true ∧ s.width.toNat * s.height.toNat ≤ s.maxPixels
  /-- a running command has used every answer given (20_memory R66) -/
  answersUsed : ∀ r, s.running = some r → s.sink.answers = []
  /-- a running command without a new answer stays as it is (60 R249, SINK_HANG: stuck) -/
  runningStuck : ∀ r, s.running = some r → resumeCommand r s = .next s

/-- Every register and memory of the PaletteIndexer fits its width and its size in a block of `maxPixels` (10_state R38). -/
structure FrameUnit.Fits (f : FrameUnit) (maxPixels : Nat) : Prop where
  palLen : f.palLen = f.pal.length
  palFits : f.palLen ≤ 256
  indexed : f.indexBuf.length = f.pix.length
  pixels : f.pix.length < 2 ^ 32
  capacity : f.pix.length ≤ maxPixels

/-- Every register and memory entry of the LZW unit fits its width and range (10_state R39 to R42). -/
structure LzwUnit.Fits (u : LzwUnit) : Prop where
  initBits : u.initBits ≤ 9
  nbits : u.nbits ≤ 12
  maxcode : u.maxcode ≤ 4096
  clear : u.clear ≤ 256
  eoi : u.eoi ≤ 257
  free : u.free ≤ 4096
  ent : u.ent < 2 ^ 12
  acc : u.acc < 2 ^ 19
  accBits : u.accBits ≤ 19
  sbCount : u.sbCount ≤ 254
  pixels : u.n < 2 ^ 32
  curPix : u.curPix ≤ u.n
  htabWf : cellsWf u.htab
  htabFits : ∀ c ∈ u.htab, c.1 < 5003 ∧ c.2 < 2 ^ 20
  codetabWf : cellsWf u.codetab
  codetabFits : ∀ c ∈ u.codetab, c.1 < 5003 ∧ c.2 < 2 ^ 12

/-- The internal registers and memories hold values of their widths and sizes, N ≤ MAX_PIXELS among them (10_state R21). -/
structure State.InternalsFit (s : State) : Prop where
  frame : s.frame.Fits s.maxPixels
  lzw : s.lzw.Fits
  pixels : s.lzw.n ≤ s.maxPixels

/-! ## Vocabulary of the claims -/

/-- The conditions that raise Precondition, the only ones (60 R241); fw, fh and present are ARG0[15:0], ARG0[31:16] and ARG1[0]. -/
def precondCause (i : Instr) (s : State) : Prop :=
  match i with
  | .start own =>
    s.lifecycle = .startedFirst ∨ s.lifecycle = .startedSubseq ∨ (own = false ∧ s.sink.present = false)
  | .addFrame =>
    s.lifecycle = .unstarted ∨ s.lifecycle = .finished ∨ s.arg1.toNat % 2 = 0
      ∨ s.arg0.toNat % 65536 = 0 ∨ s.arg0.toNat / 65536 = 0
      ∨ s.maxPixels < (s.arg0.toNat % 65536) * (s.arg0.toNat / 65536)
      ∨ (s.sizeSet = true ∧ s.maxPixels < s.width.toNat * s.height.toNat)
  | .finish => s.lifecycle = .unstarted ∨ s.lifecycle = .finished
  | .setDelay => False
  | .setRepeat => False
  | .setDispose => False
  | .setTransparent => False
  | .clearTransparent => False
  | .setSize => False
  | .setQuality => False

/-- `k` is the transparent index R125 gives for a colour: the nearest used palette entry, the lowest on equal distances, 0 when none
is used (41_palette_indexer R125). -/
def isNearestUsed (colour : Rgb) (used : BitVec 256) (pal : List Rgb) (k : Byte) : Prop :=
  let dist := fun p : Rgb =>
    ((colour.r.toNat : Int) - p.r.toNat) ^ 2 + ((colour.g.toNat : Int) - p.g.toNat) ^ 2
      + ((colour.b.toNat : Int) - p.b.toNat) ^ 2
  ((∀ (i : Nat) (p : Rgb), pal[i]? = some p → used.getLsbD i = false) → k = 0#8) ∧
  (∀ (i : Nat) (p : Rgb), pal[i]? = some p → used.getLsbD i = true →
    ∃ best, pal[k.toNat]? = some best ∧ used.getLsbD k.toNat = true ∧
      dist best ≤ dist p ∧ (dist best = dist p → k.toNat ≤ i))

/-- The commands that write host-visible registers beside RESULT, by register (10_state R26 to R34). -/
def writesDelay (i : Instr) : Prop := i = .setDelay ∨ i = .finish
/-- REPEAT: SET_REPEAT, and FINISH resets it (10_state R28). -/
def writesRepeat (i : Instr) : Prop := i = .setRepeat ∨ i = .finish
/-- DISPOSE: SET_DISPOSE, and FINISH resets it (10_state R29). -/
def writesDispose (i : Instr) : Prop := i = .setDispose ∨ i = .finish
/-- TRANSP: SET_TRANSPARENT and CLEAR_TRANSPARENT, and FINISH resets it (10_state R30). -/
def writesTransp (i : Instr) : Prop := i = .setTransparent ∨ i = .clearTransparent ∨ i = .finish
/-- SIZE and SIZE_SET: SET_SIZE and ADD_FRAME, and FINISH resets them (10_state R31, R34). -/
def writesSize (i : Instr) : Prop := i = .setSize ∨ i = .addFrame ∨ i = .finish
/-- QUALITY: SET_QUALITY, and FINISH resets it (10_state R32). -/
def writesQuality (i : Instr) : Prop := i = .setQuality ∨ i = .finish
/-- TRANS_INDEX: ADD_FRAME, and FINISH resets it (10_state R33). -/
def writesTransIndex (i : Instr) : Prop := i = .addFrame ∨ i = .finish
/-- OWN_SINK: START, and FINISH resets it (10_state R34). -/
def writesOwnSink (i : Instr) : Prop := (∃ own, i = .start own) ∨ i = .finish

/-- The state with the memories that die with each ADD_FRAME forgotten (93 P7): all that a host or the sink can see of it. -/
def visiblePart (s : State) : State := { s with frame := FrameUnit.reset, lzw := LzwUnit.reset }

/-- The visible part of an outcome. -/
def visibleOutcome : Host.Outcome State Fault Refusal → Host.Outcome State Fault Refusal
  | .next s => .next (visiblePart s)
  | .fault f => .fault f
  | .refused r => .refused r

/-- One command of a run with what came before it: the ARG0 and ARG1 the host wrote, frame memory as the frame producer
left it, and the sink's further answers. -/
structure CommandCall where
  instr    : Instr
  arg0     : Word
  arg1     : Word
  frameMem : Memory
  answers  : List SinkAnswer
deriving DecidableEq, Repr

/-- The state in which a call's command is issued: its arguments and frame memory written, its answers behind those not used. -/
def withCall (c : CommandCall) (s : State) : State :=
  { s with
    arg0 := c.arg0, arg1 := c.arg1, frameMem := c.frameMem
    sink := { s.sink with answers := s.sink.answers ++ c.answers } }

/-- The state after a sequence of commands that all completed with RESULT = OK, if they all did. -/
def runAllOk : List CommandCall → State → Option State
  | [], s => some s
  | c :: rest, s =>
    match exec c.instr (withCall c s) with
    | .next t => if t.running = none ∧ t.result = .ok then runAllOk rest t else none
    | _ => none

/-- A 7-byte screen descriptor of a w × h session (43_container R189). -/
def isScreenDescriptor (w h : Half) (b : List Byte) : Prop :=
  b = [w.extractLsb' 0 8, w.extractLsb' 8 8, h.extractLsb' 0 8, h.extractLsb' 8 8, 0xF7#8, 0x00#8, 0x00#8]

/-- The looping part before the first frame when REPEAT is `n`: a 19-byte extension with the low 16 bits of `n` when n ≥ 0, else
nothing (43_container R191). -/
def isLoopPart (n : Word) (b : List Byte) : Prop :=
  b = if 0 ≤ n.toInt then
      [0x21#8, 0xFF#8, 0x0B#8, 0x4E#8, 0x45#8, 0x54#8, 0x53#8, 0x43#8, 0x41#8, 0x50#8, 0x45#8, 0x32#8, 0x2E#8, 0x30#8,
        0x03#8, 0x01#8, n.extractLsb' 0 8, n.extractLsb' 8 8, 0x00#8]
    else []

/-- An 8-byte graphic-control block (43_container R192). -/
def isControlBlock (b : List Byte) : Prop :=
  ∃ packed lo hi index : Byte, b = [0x21#8, 0xF9#8, 0x04#8, packed, lo, hi, index, 0x00#8]

/-- A 10-byte image descriptor of a w × h session with the given packed byte (43_container R194). -/
def isImageDescriptor (w h : Half) (packed : Byte) (b : List Byte) : Prop :=
  b = [0x2C#8, 0x00#8, 0x00#8, 0x00#8, 0x00#8, w.extractLsb' 0 8, w.extractLsb' 8 8, h.extractLsb' 0 8, h.extractLsb' 8 8,
    packed]

/-- The LZW data of some w × h frame (42_lzw R140). -/
def isFrameData (w h : Half) (b : List Byte) : Prop :=
  ∃ (indices : List Byte) (u : LzwUnit), indices.length = w.toNat * h.toNat ∧ b = (lzwEncode 8 indices u).2

/-- FRAME1 of 43_container R198, with the LSD, GPAL and LOOP before it, when REPEAT is `n`. -/
def isFirstFrame (w h : Half) (n : Word) (b : List Byte) : Prop :=
  ∃ lsd gpal loop gce desc data : List Byte,
    b = lsd ++ gpal ++ loop ++ gce ++ desc ++ data ∧ isScreenDescriptor w h lsd ∧ gpal.length = 768
      ∧ isLoopPart n loop ∧ isControlBlock gce ∧ isImageDescriptor w h 0x00#8 desc ∧ isFrameData w h data

/-- FRAME of 43_container R198. -/
def isLaterFrame (w h : Half) (b : List Byte) : Prop :=
  ∃ gce desc lpal data : List Byte,
    b = gce ++ desc ++ lpal ++ data ∧ isControlBlock gce ∧ isImageDescriptor w h 0x87#8 desc ∧ lpal.length = 768
      ∧ isFrameData w h data

end Sys2Proof.Machine
end

