-- ==== Sys2Proof/Safety/Reference.lean ====
section
/-! DEFINITION. What the LZW claims compare the unit with, written without its hash table, accumulator or sub-block buffer:
an abstract compressor (42_lzw R158), the packing of codes into bytes and sub-blocks (R152, R160), and a decoder (R161). -/

namespace Sys2Proof.Machine

/-! ## The abstract compressor (R158) -/

/-- The abstract dictionary, the next code, the current string's code and the current width. -/
structure AbsLzw where
  dict  : List ((Nat × Nat) × Nat)
  free  : Nat
  ent   : Nat
  width : Nat
deriving DecidableEq, Repr

/-- The largest code that does not widen the width: 2^width − 1, and 4096 at width 12 (R142, R154). -/
def absLimit (width : Nat) : Nat := if width = 12 then 4096 else 2 ^ width - 1

/-- The width after a code is emitted (R154). -/
def absWiden (a : AbsLzw) : AbsLzw := if absLimit a.width < a.free then { a with width := a.width + 1 } else a

/-- One pixel: the state after it, and the (code, width) pairs it emits (R145, R148 to R150). -/
def absPixel (mcs c : Nat) (a : AbsLzw) : AbsLzw × List (Nat × Nat) :=
  match assocGet a.dict (a.ent, c) with
  | some code => ({ a with ent := code }, [])
  | none =>
    let a1 := absWiden a
    if a.free < 4096 then
      ({ a1 with dict := ((a.ent, c), a.free) :: a.dict, free := a.free + 1, ent := c }, [(a.ent, a.width)])
    else
      ({ dict := [], free := 2 ^ mcs + 2, ent := c, width := mcs + 1 }, [(a.ent, a.width), (2 ^ mcs, a1.width)])

/-- The codes of the remaining pixels, then the last string and EOI (R145, R151). -/
def absCodesFrom (mcs : Nat) : List Byte → AbsLzw → List (Nat × Nat)
  | [], a => [(a.ent, a.width), (2 ^ mcs + 1, (absWiden a).width)]
  | c :: rest, a => (absPixel mcs c.toNat a).2 ++ absCodesFrom mcs rest (absPixel mcs c.toNat a).1

/-- The codes of a frame with their widths: the opening Clear, the data codes, EOI (R144, R145, R151). -/
def absCodes (mcs : Nat) : List Byte → List (Nat × Nat)
  | [] => []
  | first :: rest =>
    (2 ^ mcs, mcs + 1)
      :: absCodesFrom mcs rest { dict := [], free := 2 ^ mcs + 2, ent := first.toNat, width := mcs + 1 }

/-! ## Codes to bytes, bytes to sub-blocks -/

/-- The bits of codes, least significant bit first (20_memory R64). -/
def codeBits (codes : List (Nat × Nat)) : List Bool :=
  codes.flatMap fun c => (List.range c.2).map fun i => c.1.testBit i

/-- A number from its bits, least significant first. -/
def bitsValue : List Bool → Nat
  | [] => 0
  | b :: rest => b.toNat + 2 * bitsValue rest

/-- The bytes of a bit string, the last one padded with zero bits above (42_lzw R155). -/
def packBytes : List Bool → List Byte
  | [] => []
  | b0 :: b1 :: b2 :: b3 :: b4 :: b5 :: b6 :: b7 :: rest =>
    BitVec.ofNat 8 (bitsValue [b0, b1, b2, b3, b4, b5, b6, b7]) :: packBytes rest
  | b :: rest => [BitVec.ofNat 8 (bitsValue (b :: rest))]

/-- The sub-blocks of at most 254 bytes, each behind its length (R156, R157); `fuel` bounds their number. -/
def subBlocks : Nat → List Byte → List Byte
  | 0, _ => []
  | _ + 1, [] => []
  | fuel + 1, b :: rest =>
    BitVec.ofNat 8 ((b :: rest).take 254).length :: (b :: rest).take 254 ++ subBlocks fuel ((b :: rest).drop 254)

/-- The data region that codes with their widths give: the minimum-code-size byte, the codes packed and cut into sub-blocks,
the zero-length terminator (R140). -/
def packRegion (mcs : Nat) (codes : List (Nat × Nat)) : List Byte :=
  BitVec.ofNat 8 mcs :: subBlocks (packBytes (codeBits codes)).length (packBytes (codeBits codes)) ++ [0x00#8]

/-- The data region of a frame as the abstract compressor gives it (R140). -/
def absEncode (mcs : Nat) (indices : List Byte) : List Byte := packRegion mcs (absCodes mcs indices)

/-! ## A decoder (R161) -/

/-- The decoder's table of strings from code Clear + 2 on, the previous string since the last Clear, and the width. -/
structure DecLzw where
  table : List (List Byte)
  prev  : Option (List Byte)
  width : Nat
deriving DecidableEq, Repr

/-- The string of a code: a symbol, a table entry, or the entry about to be added. -/
def decString (mcs code : Nat) (table : List (List Byte)) (prev : List Byte) : Option (List Byte) :=
  if code < 2 ^ mcs then some [BitVec.ofNat 8 code]
  else if code < 2 ^ mcs + 2 then none
  else if code - (2 ^ mcs + 2) < table.length then table[code - (2 ^ mcs + 2)]?
  else if code - (2 ^ mcs + 2) = table.length ∧ code < 4096 then some (prev ++ prev.take 1)
  else none

/-- The table after a code: one entry more while a code is free (R161). -/
def decExtend (mcs : Nat) (table : List (List Byte)) (prev entry : List Byte) : List (List Byte) :=
  if 2 ^ mcs + 2 + table.length < 4096 then table ++ [prev ++ entry.take 1] else table

/-- The width after a code: one more when the next free code reaches 2^width below 12 bits (R161). -/
def decWiden (mcs width : Nat) (table : List (List Byte)) : Nat :=
  if width < 12 ∧ 2 ^ mcs + 2 + table.length = 2 ^ width then width + 1 else width

/-- The symbols of a bit string of codes up to EOI; `fuel` bounds the number of codes. -/
def decCodes (mcs : Nat) : Nat → DecLzw → List Bool → Option (List Byte)
  | 0, _, _ => none
  | fuel + 1, d, bits =>
    if bits.length < d.width then none
    else
      let code := bitsValue (bits.take d.width)
      let rest := bits.drop d.width
      if code = 2 ^ mcs then decCodes mcs fuel { table := [], prev := none, width := mcs + 1 } rest
      else if code = 2 ^ mcs + 1 then some []
      else
        match d.prev with
        | none =>
          if code < 2 ^ mcs then
            (decCodes mcs fuel { d with prev := some [BitVec.ofNat 8 code] } rest).map ([BitVec.ofNat 8 code] ++ ·)
          else none
        | some prev =>
          match decString mcs code d.table prev with
          | none => none
          | some entry =>
            let table := decExtend mcs d.table prev entry
            (decCodes mcs fuel { table := table, prev := some entry, width := decWiden mcs d.width table } rest).map
              (entry ++ ·)

/-- The data bytes of a run of sub-blocks that ends with the zero-length one and nothing after it; `fuel` bounds their number. -/
def joinSubBlocks : Nat → List Byte → Option (List Byte)
  | 0, _ => none
  | _ + 1, [] => none
  | fuel + 1, n :: rest =>
    if n = 0#8 then (if rest = [] then some [] else none)
    else if rest.length < n.toNat then none
    else (joinSubBlocks fuel (rest.drop n.toNat)).map (rest.take n.toNat ++ ·)

/-- The bits of bytes, least significant first. -/
def byteBits (bytes : List Byte) : List Bool :=
  bytes.flatMap fun b => (List.range 8).map fun i => b.getLsbD i

/-- A data region decoded: the minimum-code-size byte, the sub-blocks, the codes (R161). -/
def decodeRegion : List Byte → Option (List Byte)
  | [] => none
  | mcs :: blocks =>
    match joinSubBlocks blocks.length blocks with
    | none => none
    | some bytes =>
      decCodes mcs.toNat (byteBits bytes).length { table := [], prev := none, width := mcs.toNat + 1 } (byteBits bytes)

end Sys2Proof.Machine
end

