-- ==== Sys2Proof/Certificates/Slice0/Obligations.lean ====
section
/-! DEFINITION. The statements for the provers, from the numbered rules of spec/. -/

open Sys2Proof Sys2Proof.Machine

/-! ## Encoding (30_encoding) -/

/-- Decoding the word of a command gives the command back, OWN included (30_encoding R90 to R92). -/
def Obligations.DecodeOfEncodeIsTheCommand : Prop :=
  ∀ i : Instr, i.wellFormed = true → decode (encode i) = .ok i

/-- 30_encoding R92: which word selects which command, the match and mask of each, and no word selects two. -/
def Obligations.WordSelectsCommandByOpcodeReservedAndOwn : Prop :=
  (∀ (w : Word) (i : Instr), decode w = .ok i ↔
    w.toNat % 256 = (match i with
      | .start _ => 0x01
      | .addFrame => 0x02
      | .finish => 0x03
      | .setDelay => 0x10
      | .setRepeat => 0x11
      | .setDispose => 0x12
      | .setTransparent => 0x13
      | .clearTransparent => 0x14
      | .setSize => 0x15
      | .setQuality => 0x16)
    ∧ w.toNat / 512 = 0 ∧ (w.toNat / 256 % 2 = 1 ↔ i = .start true)) ∧
  (∀ w : Word, (∃ own, decode w = .ok (.start own)) ↔ w &&& 0xFFFFFEFF#32 = 0x00000001#32) ∧
  (∀ (w : Word) (i : Instr), (∀ own, i ≠ .start own) → (decode w = .ok i ↔ w = encode i)) ∧
  (∀ (w : Word) (i j : Instr), decode w = .ok i → decode w = .ok j → i = j)

/-- 30_encoding R94 and 60 R243: a word is illegal exactly on one of the three conditions, and then it only writes RESULT. -/
def Obligations.IllegalWordOnlyWritesResult : Prop :=
  ∀ (w : Word) (s : State) (rest : List HostInput),
    ((w.toNat % 256 ∉ [0x01, 0x02, 0x03, 0x10, 0x11, 0x12, 0x13, 0x14, 0x15, 0x16]
        ∨ w.toNat / 512 ≠ 0 ∨ (w.toNat / 256 % 2 = 1 ∧ w.toNat % 256 ≠ 0x01))
      ↔ ∀ i, decode w ≠ .ok i) ∧
    (s.running = none → s.inputs = .regWrite 4 0x00 w :: rest → (∀ i, decode w ≠ .ok i) →
      step s = .next { s with inputs := rest, result := .illegal })

/-- Words written out from 30_encoding R90 and R91 decode to their commands; the rejected ones are those of 95 section 2.1. -/
def Obligations.SampleWordsDecode : Prop :=
  decodeTableWord 32 0x00000001 = some (.start false) ∧ decodeTableWord 32 0x00000101 = some (.start true) ∧
  decodeTableWord 32 0x00000002 = some .addFrame ∧ decodeTableWord 32 0x00000003 = some .finish ∧
  decodeTableWord 32 0x00000010 = some .setDelay ∧ decodeTableWord 32 0x00000013 = some .setTransparent ∧
  decodeTableWord 32 0x00000016 = some .setQuality ∧ decodeTableWord 32 0x00000000 = none ∧
  decodeTableWord 32 0x00000102 = none ∧ decodeTableWord 32 0x00000201 = none ∧ decodeTableWord 32 0x80000010 = none

/-- 30_encoding R93 with the register writes of R97, for every statement with operands in ARG0 or ARG1: what it writes there is
what its command reads. Operands too wide for their field are not in it (log 24). -/
def Obligations.AssembledOperandsAreReadBack : Prop :=
  (∀ (fw fh : Nat) (present : Bool) (s : State), fw < 65536 → fh < 65536 →
    asmWrites (.addFrame fw fh present)
      = [.regWrite 4 0x04 (pairWord fh fw), .regWrite 4 0x08 (if present then 1#32 else 0#32), .regWrite 4 0x00 0x00000002#32] ∧
    (s.arg0 = pairWord fh fw → s.arg1 = (if present then 1#32 else 0#32) →
      (opFw s).toNat = fw ∧ (opFh s).toNat = fh ∧ opPresent s = present)) ∧
  (∀ (ms : Nat) (s : State), ms < 2 ^ 32 →
    asmWrites (.setDelay ms) = [.regWrite 4 0x04 (BitVec.ofNat 32 ms), .regWrite 4 0x00 0x00000010#32] ∧
    (s.arg0 = BitVec.ofNat 32 ms → opMs s = ms)) ∧
  (∀ (n : Int) (s : State), -(2 ^ 31) ≤ n → n < 2 ^ 31 →
    asmWrites (.setRepeat n) = [.regWrite 4 0x04 (BitVec.ofInt 32 n), .regWrite 4 0x00 0x00000011#32] ∧
    asmWrites (.setDispose n) = [.regWrite 4 0x04 (BitVec.ofInt 32 n), .regWrite 4 0x00 0x00000012#32] ∧
    asmWrites (.setQuality n) = [.regWrite 4 0x04 (BitVec.ofInt 32 n), .regWrite 4 0x00 0x00000016#32] ∧
    (s.arg0 = BitVec.ofInt 32 n → opSigned s = n)) ∧
  (∀ (r g b : Byte) (s : State),
    asmWrites (.setTransparent (65536 * r.toNat + 256 * g.toNat + b.toNat))
      = [.regWrite 4 0x04 (0#8 ++ r ++ g ++ b), .regWrite 4 0x00 0x00000013#32] ∧
    (s.arg0 = 0#8 ++ r ++ g ++ b → opColour s = { r := r, g := g, b := b })) ∧
  (∀ (w h : Nat) (s : State), w < 65536 → h < 65536 →
    asmWrites (.setSize w h) = [.regWrite 4 0x04 (pairWord h w), .regWrite 4 0x00 0x00000015#32] ∧
    (s.arg0 = pairWord h w → (opW s).toNat = w ∧ (opH s).toNat = h))

/-! ## Steps and the host port (10_state, 20_memory, 60, 70) -/

/-- A CMD write of a word that decodes runs that command on the state with the input taken; the step adds nothing else (10_state
R24). That the CMD write's own step runs the whole command is the model's choice (log 1), and so is where withFetchWord puts
the word (log 2). -/
def Obligations.StepRunsTheDecodedCommand : Prop :=
  (∀ (s : State) (w : Word) (i : Instr) (rest : List HostInput),
    s.running = none → s.inputs = .regWrite 4 0x00 w :: rest → decode w = .ok i →
    step s = exec i { s with inputs := rest }) ∧
  (∀ (s : State) (w : Word) (i : Instr), decode w = .ok i →
    step (s.withFetchWord 32 w.toNat) = exec i { s with running := none })

/-- 60 R244: a CMD write while BUSY = 1 is dropped and sets OVERRUN, and the running command goes on as it would have. That
OVERRUN stays set also when the running command is a START is the model's inference (log 6). -/
def Obligations.CommandWriteWhileBusyIsDropped : Prop :=
  (∀ (s : State) (r : Running) (w : Word) (rest : List HostInput),
    s.running = some r → s.inputs = .regWrite 4 0x00 w :: rest →
    step s = .next { s with inputs := rest, overrun := true, running := some { r with dropped := true } }) ∧
  (∀ (s t : State) (r : Running),
    resumeCommand r s = .next t →
    resumeCommand { r with dropped := true } { s with overrun := true, running := some { r with dropped := true } }
      = .next { t with overrun := true, running := t.running.map fun r' => { r' with dropped := true } })

/-- 10_state R22 to R35: what a register read returns, field by field; a read changes nothing else. It holds while BUSY = 1 too,
where ARG0, ARG1 and OVERRUN read what the host last did, which is the model's inference (log 5); that the answer is held in
readData is the model's choice (log 17). -/
def Obligations.RegisterReadsReturnTheirFields : Prop :=
  ∀ (s : State) (offset : Nat) (rest : List HostInput),
    s.inputs = .regRead 4 offset :: rest → offset % 4 = 0 →
    step s = .next { s with
      inputs := rest
      readData := BitVec.ofNat 32
        (if offset = 0x00 then 0
        else if offset = 0x04 then s.arg0.toNat
        else if offset = 0x08 then s.arg1.toNat
        else if offset = 0x0C then
          (match s.lifecycle with
            | .unstarted => 0
            | .startedFirst => 1
            | .startedSubseq => 2
            | .finished => 3)
          + (if s.running = none then 0 else 4)
          + (match s.result with
            | .ok => 0
            | .precond => 16
            | .sink => 32
            | .illegal => 48)
          + (if s.sinkErr then 256 else 0) + (if s.overrun then 512 else 0)
        else if offset = 0x10 then s.delayCs.toNat
        else if offset = 0x14 then s.repeatCount.toNat
        else if offset = 0x18 then s.dispose.toNat
        else if offset = 0x1C then
          (if s.transp.valid then 16777216 else 0) + 65536 * s.transp.colour.r.toNat
            + 256 * s.transp.colour.g.toNat + s.transp.colour.b.toNat
        else if offset = 0x20 then s.width.toNat + 65536 * s.height.toNat
        else if offset = 0x24 then s.quality.toNat
        else if offset = 0x28 then s.transIndex.toNat
        else if offset = 0x2C then (if s.sizeSet then 1 else 0) + (if s.ownSink then 2 else 0)
        else 0) }

/-- 10_state R25 and R35: a host write sets all of ARG0 or ARG1, and has no effect on any other register or above 0x2C. -/
def Obligations.HostWritesReachOnlyTheArguments : Prop :=
  ∀ (s : State) (offset : Nat) (v : Word) (rest : List HostInput),
    s.inputs = .regWrite 4 offset v :: rest → offset % 4 = 0 → offset ≠ 0x00 →
    step s = .next { s with
      inputs := rest
      arg0 := if offset = 0x04 then v else s.arg0
      arg1 := if offset = 0x08 then v else s.arg1 }

/-- 20_memory R63: a host access is refused exactly when it is not a whole 32-bit word at a multiple of 4. -/
def Obligations.AccessRefusedExactlyWhenNotAnAlignedWord : Prop :=
  ∀ (s : State) (size offset : Nat) (v : Word) (rest : List HostInput),
    (s.inputs = .regRead size offset :: rest →
      (step s = .refused .badAccess ↔ (size ≠ 4 ∨ offset % 4 ≠ 0))) ∧
    (s.inputs = .regWrite size offset v :: rest →
      (step s = .refused .badAccess ↔ (size ≠ 4 ∨ offset % 4 ≠ 0)))

/-- 70 R265: a producer write while BUSY = 1 for an ADD_FRAME is FRAME_HAZARD; at any other time it stores its byte, which
the next read sees, and leaves every other byte and everything else alone. -/
def Obligations.ProducerWriteStoresOrIsTheHazard : Prop :=
  ∀ (s : State) (a : Nat) (v : Byte) (rest : List HostInput),
    s.inputs = .frameWrite a v :: rest → a < 3 * s.maxPixels →
    ((∃ r, s.running = some r ∧ r.instr = .addFrame) → step s = .fault .frameHazard) ∧
    ((∀ r, s.running = some r → r.instr ≠ .addFrame) →
      ∃ m, step s = .next { s with inputs := rest, frameMem := m } ∧ frameRead m a = v ∧
        ∀ b, b ≠ a → frameRead m b = frameRead s.frameMem b)

/-- 60 R249, R255 and 70 R268: without a further input an idle block keeps all its state, and a command that waits for an
answer is stuck. That the stuck run ends in a fault, and when, is the model's form of it (log 3, log 18). -/
def Obligations.NoInputLeavesIdleOrStuck : Prop :=
  ∀ s : State, s.inputs = [] →
    (s.running = none → step s = .next s) ∧ (s.running ≠ none → step s = .fault .sinkHang)

/-- 70 R260 and R261: the reset input gives every register its reset value, abandons a running command, issues no sink
operation, and leaves frame memory and the stream alone. That the sink port as a whole stays, answers still to come and a log
without the operation in flight, and the inputs and the host's last read with it, is the model's choice (log 21). -/
def Obligations.ResetInputGivesResetValues : Prop :=
  ∀ (s : State) (rest : List HostInput), s.inputs = .reset :: rest →
    ∃ (f : FrameUnit) (u : LzwUnit), step s = .next { s with
      inputs := rest, arg0 := 0#32, arg1 := 0#32, lifecycle := .unstarted, result := .ok, sinkErr := false,
      overrun := false, running := none, delayCs := 0#16, repeatCount := BitVec.ofInt 32 (-1),
      dispose := BitVec.ofInt 32 (-1), transp := ⟨false, ⟨0#8, 0#8, 0#8⟩⟩, width := 0#16, height := 0#16,
      quality := 10#32, transIndex := 0#8, sizeSet := false, ownSink := false, frame := f, lzw := u }

/-- 10_state R44, the column of power-on reset, for the values the spec states. -/
def Obligations.PowerOnStateHoldsTheStatedValues : Prop :=
  let s := State.reset
  s.arg0 = 0#32 ∧ s.arg1 = 0#32 ∧ statusWord s = 0#32 ∧ s.lifecycle = .unstarted ∧ s.running = none ∧ s.result = .ok ∧
  s.sinkErr = false ∧ s.overrun = false ∧ s.delayCs = 0#16 ∧ s.repeatCount.toInt = -1 ∧ s.dispose.toInt = -1 ∧
  transpWord s = 0#32 ∧ sizeWord s = 0#32 ∧ s.quality = 10#32 ∧ s.transIndex = 0#8 ∧ sessionWord s = 0#32 ∧ s.stream = []

/-! ## The configuration commands (44_config) -/

/-- 44_config R220. -/
def Obligations.SetDelayRoundsToHundredths : Prop :=
  ∀ s : State, s.running = none →
    exec .setDelay s = .next { s with delayCs := BitVec.ofNat 16 ((s.arg0.toNat + 5) / 10 % 65536), result := .ok }

/-- 44_config R221, with its two corner cases on where REPEAT reaches the stream. -/
def Obligations.SetRepeatStoresOrMeansNone : Prop :=
  (∀ s : State, s.running = none →
    exec .setRepeat s = .next { s with
      repeatCount := if 0 ≤ s.arg0.toInt then s.arg0 else BitVec.ofInt 32 (-1), result := .ok }) ∧
  (∀ (s : State) (n : Word) (data : List Byte), s.lifecycle = .startedSubseq →
    frameBytes { s with repeatCount := n } data = frameBytes s data) ∧
  (∀ s : State, ((loopExtBytes s).drop 16).take 2
    = [BitVec.ofNat 8 (s.repeatCount.toNat % 256), BitVec.ofNat 8 (s.repeatCount.toNat / 256 % 256)])

/-- 44_config R222, with the method each stored value selects (43_container R193). -/
def Obligations.SetDisposeStoresOrMeansDefault : Prop :=
  (∀ s : State, s.running = none →
    exec .setDispose s = .next { s with
      dispose := if 0 ≤ s.arg0.toInt then s.arg0 else BitVec.ofInt 32 (-1), result := .ok }) ∧
  (∀ s : State, (disposalMethod s).toNat =
    if 0 ≤ s.dispose.toInt then s.dispose.toNat % 8 else if s.transp.valid then 2 else 0)

/-- 44_config R223. -/
def Obligations.SetTransparentStoresTheColour : Prop :=
  ∀ s : State, s.running = none →
    exec .setTransparent s = .next { s with
      transp :=
        { valid := true
          colour :=
            { r := BitVec.ofNat 8 (s.arg0.toNat / 65536 % 256), g := BitVec.ofNat 8 (s.arg0.toNat / 256 % 256),
              b := BitVec.ofNat 8 (s.arg0.toNat % 256) } }
      result := .ok }

/-- 44_config R224, with what graphic-control blocks carry from then on while TRANSP and TRANS_INDEX stay. -/
def Obligations.ClearTransparentClearsTransp : Prop :=
  ∀ s : State, s.running = none →
    ∃ t, exec .clearTransparent s = .next t ∧ transpWord t = 0#32 ∧ t.result = .ok ∧
      t = { s with transp := t.transp, result := .ok } ∧
      ∀ u : State, u.transp = t.transp → u.transIndex = t.transIndex →
        ∃ packed lo hi : Byte,
          gceBytes u = [0x21#8, 0xF9#8, 0x04#8, packed, lo, hi, s.transIndex, 0x00#8] ∧ packed.getLsbD 0 = false

/-- 44_config R225. -/
def Obligations.SetSizeFixesTheDimensions : Prop :=
  ∀ s : State, s.running = none →
    exec .setSize s =
      if s.lifecycle = .startedSubseq then .next { s with result := .ok }
      else .next { s with
        width := BitVec.ofNat 16 (if s.arg0.toNat % 65536 = 0 then 320 else s.arg0.toNat % 65536)
        height := BitVec.ofNat 16 (if s.arg0.toNat / 65536 = 0 then 240 else s.arg0.toNat / 65536)
        sizeSet := true
        result := .ok }

/-- 44_config R226. -/
def Obligations.SetQualityStoresAtLeastOne : Prop :=
  ∀ s : State, s.running = none →
    exec .setQuality s = .next { s with
      quality := if s.arg0.toInt < 1 then 1#32 else s.arg0, result := .ok }

/-! ## START, ADD_FRAME, FINISH (43_container, 60) -/

/-- 60 R241: the conditions that raise Precondition, for every command; a PRECOND command changes nothing except RESULT,
but for a START that passed its state check, which has cleared the sticky flags; and nothing else raises it. -/
def Obligations.PreconditionExactlyOnItsCauses : Prop :=
  ∀ (i : Instr) (s : State), s.running = none →
    (precondCause i s →
      exec i s = .next { s with
        result := .precond
        sinkErr := s.sinkErr && (decide (∀ own, i ≠ .start own) || s.started)
        overrun := s.overrun && (decide (∀ own, i ≠ .start own) || s.started) }) ∧
    (¬ precondCause i s → ∀ t, exec i s = .next t → t.running = none → t.result ≠ .precond)

/-- 43_container R181 and R188: START completes when no session runs, the sink is there, and the sink accepts: it opens the sink
if asked to, writes the six signature bytes, and moves to STARTED_FIRST; everything else keeps its value. -/
def Obligations.StartWritesTheSignature : Prop :=
  ∀ (own : Bool) (s : State) (rest : List SinkAnswer),
    s.running = none → (s.lifecycle = .unstarted ∨ s.lifecycle = .finished) → (own = false → s.sink.present = true) →
    s.sink.answers = List.replicate (if own then 7 else 6) .ok ++ rest →
    exec (.start own) s = .next { s with
      sinkErr := false, overrun := false, ownSink := own, lifecycle := .startedFirst, result := .ok
      sink := { s.sink with
        answers := rest
        log := [⟨.sinkWrite 0x61#8, .ok⟩, ⟨.sinkWrite 0x39#8, .ok⟩, ⟨.sinkWrite 0x38#8, .ok⟩, ⟨.sinkWrite 0x46#8, .ok⟩,
          ⟨.sinkWrite 0x49#8, .ok⟩, ⟨.sinkWrite 0x47#8, .ok⟩] ++ (if own then [⟨.sinkOpen, .ok⟩] else []) ++ s.sink.log } }

/-- 43_container R181 and 60 R242: START on a sink that fails: at SinkOpen, OWN_SINK is not written; at a signature byte, it is,
and the bytes accepted before stay in the stream. STATE stays in both cases, and no later operation is offered. -/
def Obligations.StartOnAFailingSink : Prop :=
  ∀ (own : Bool) (s : State) (rest : List SinkAnswer),
    s.running = none → (s.lifecycle = .unstarted ∨ s.lifecycle = .finished) → (own = false → s.sink.present = true) →
    let signature : List Byte := [0x47#8, 0x49#8, 0x46#8, 0x38#8, 0x39#8, 0x61#8]
    (own = true → s.sink.answers = .fail :: rest →
      exec (.start own) s = .next { s with
        sinkErr := true, overrun := false, result := .sink
        sink := { s.sink with answers := rest, log := ⟨.sinkOpen, .fail⟩ :: s.sink.log } }) ∧
    (∀ (k : Nat) (b : Byte), signature[k]? = some b →
      s.sink.answers = List.replicate ((if own then 1 else 0) + k) .ok ++ .fail :: rest →
      ∃ t, exec (.start own) s = .next t ∧ t.stream = s.stream ++ signature.take k ∧
        t = { s with
          sinkErr := true, overrun := false, ownSink := own, result := .sink
          sink := { s.sink with
            answers := rest
            log := ⟨.sinkWrite b, .fail⟩ :: ((signature.take k).map fun c => ⟨.sinkWrite c, .ok⟩).reverse
              ++ (if own then [⟨.sinkOpen, .ok⟩] else []) ++ s.sink.log } })

/-- 43_container R182 and R184: ADD_FRAME completes when no precondition fails and the sink accepts every byte of the frame: the
bytes of steps 4 to 7 are appended, STATE becomes STARTED_SUBSEQ, and beside what steps 1 to 3 wrote, which
`FramePreparationFollowsStepsOneToThree` says, nothing else changes. What the memories that are dead after the command hold, the
PaletteIndexer's and the LZW unit's, is the model's choice (log 13). -/
def Obligations.AddFrameWritesTheFrame : Prop :=
  ∀ (s : State) (rest : List SinkAnswer),
    s.running = none → ¬ precondCause .addFrame s →
    let p := prepareFrame s
    let bytes := frameBytes p (lzwEncode 8 p.frame.indexBuf p.lzw).2
    s.sink.answers = List.replicate bytes.length .ok ++ rest →
    ∃ t, exec .addFrame s = .next t ∧ t.stream = s.stream ++ bytes ∧
      t = { s with
        lifecycle := .startedSubseq, result := .ok, width := p.width, height := p.height, sizeSet := true
        transIndex := p.transIndex, frame := p.frame, lzw := (lzwEncode 8 p.frame.indexBuf p.lzw).1
        sink := { s.sink with
          answers := rest, log := (bytes.map fun b => ⟨.sinkWrite b, .ok⟩).reverse ++ s.sink.log } }

/-- 43_container R185 and 60 R242: ADD_FRAME on a sink that fails byte k: RESULT = SINK and SINK_ERR = 1, STATE stays, what steps
1 to 3 wrote stays, the k bytes accepted before stay in the stream, and no later byte is offered. -/
def Obligations.AddFrameOnAFailingSink : Prop :=
  ∀ (s : State) (k : Nat) (b : Byte) (rest : List SinkAnswer),
    s.running = none → ¬ precondCause .addFrame s →
    let p := prepareFrame s
    let bytes := frameBytes p (lzwEncode 8 p.frame.indexBuf p.lzw).2
    bytes[k]? = some b → s.sink.answers = List.replicate k .ok ++ .fail :: rest →
    ∃ t, exec .addFrame s = .next t ∧ t.stream = s.stream ++ bytes.take k ∧
      t = { s with
        result := .sink, sinkErr := true, width := p.width, height := p.height, sizeSet := true
        transIndex := p.transIndex, frame := t.frame, lzw := t.lzw
        sink := { s.sink with
          answers := rest
          log := ⟨.sinkWrite b, .fail⟩ :: ((bytes.take k).map fun c => ⟨.sinkWrite c, .ok⟩).reverse ++ s.sink.log } }

/-- 43_container R183: an ADD_FRAME that is not refused leaves the dimensions fixed: the session's, else the frame's own, also
when it then aborts on the sink. -/
def Obligations.FirstFrameFixesTheDimensions : Prop :=
  ∀ s t : State, s.running = none → exec .addFrame s = .next t → t.running = none → t.result ≠ .precond →
    t.sizeSet = true ∧
    t.width = (if s.sizeSet then s.width else BitVec.ofNat 16 (s.arg0.toNat % 65536)) ∧
    t.height = (if s.sizeSet then s.height else BitVec.ofNat 16 (s.arg0.toNat / 65536))

/-- 43_container R186 and R187: FINISH of a running session writes the trailer, flushes, and closes an own sink; it always ends
in FINISHED with the configuration reset, and reports SINK when one of these failed, after which no other is issued. -/
def Obligations.FinishEndsTheSession : Prop :=
  ∀ (s : State) (rest : List SinkAnswer),
    s.running = none → (s.lifecycle = .startedFirst ∨ s.lifecycle = .startedSubseq) →
    let ops : List SinkOp := [.sinkWrite 0x3B#8, .sinkFlush] ++ (if s.ownSink then [.sinkClose] else [])
    (s.sink.answers = List.replicate ops.length .ok ++ rest →
      exec .finish s = .next { s with
        lifecycle := .finished, result := .ok, delayCs := 0#16, repeatCount := BitVec.ofInt 32 (-1),
        dispose := BitVec.ofInt 32 (-1), transp := ⟨false, ⟨0#8, 0#8, 0#8⟩⟩, width := 0#16, height := 0#16,
        quality := 10#32, transIndex := 0#8, sizeSet := false, ownSink := false
        sink := { s.sink with answers := rest, log := (ops.map fun op => ⟨op, .ok⟩).reverse ++ s.sink.log } }) ∧
    (∀ (pre : List SinkOp) (op : SinkOp) (post : List SinkOp), ops = pre ++ op :: post →
      s.sink.answers = List.replicate pre.length .ok ++ .fail :: rest →
      exec .finish s = .next { s with
        lifecycle := .finished, result := .sink, sinkErr := true, delayCs := 0#16, repeatCount := BitVec.ofInt 32 (-1),
        dispose := BitVec.ofInt 32 (-1), transp := ⟨false, ⟨0#8, 0#8, 0#8⟩⟩, width := 0#16, height := 0#16,
        quality := 10#32, transIndex := 0#8, sizeSet := false, ownSink := false
        sink := { s.sink with
          answers := rest, log := ⟨op, .fail⟩ :: (pre.map fun op => ⟨op, .ok⟩).reverse ++ s.sink.log } })

/-- 10_state R35 and R25: a command that waits for a sink answer has written no register; its operands and its SINK_PRESENT sample
are latched. The memories that die with a frame are left free. That the answers are a list, all of it used when the command
waits, is the model's choice (log 3). -/
def Obligations.WaitingCommandHasWrittenNoRegister : Prop :=
  ∀ (i : Instr) (s t : State), s.running = none → exec i s = .next t → t.running ≠ none →
    t = { s with sink := t.sink, running := t.running, frame := t.frame, lzw := t.lzw } ∧ t.sink.answers = [] ∧
    t.sink.present = s.sink.present ∧
    ∃ n, t.running = some
        { instr := i, arg0 := s.arg0, arg1 := s.arg1, present := s.sink.present, answered := n, dropped := false } ∧
      s.sink.answers = List.replicate n .ok

/-- 00_scope R7 and 20_memory R71: a command is one transaction whatever the moments its answers come at: given in two stretches
they end it as they do given at once. -/
def Obligations.AnswersInTwoStretchesEndTheSameWay : Prop :=
  ∀ (i : Instr) (s t : State) (first later : List SinkAnswer),
    s.running = none → exec i { s with sink := { s.sink with answers := first } } = .next t → t.running ≠ none →
    receiveAnswers later t = exec i { s with sink := { s.sink with answers := first ++ later } }

/-- 10_state R25 and 70 R267: host writes to ARG0 and ARG1 while a command runs stay, and do not change what the command does. -/
def Obligations.ArgumentsAreLatched : Prop :=
  ∀ (s t : State) (r : Running) (v0 v1 : Word),
    resumeCommand r s = .next t →
    resumeCommand r { s with arg0 := v0, arg1 := v1 } = .next { t with arg0 := v0, arg1 := v1 }

/-! ## The palette indexer (41_palette_indexer) -/

/-- 41_palette_indexer R122: PIX is the frame cropped or padded with black to the session's size, row-major. -/
def Obligations.ReformatCropsAndPads : Prop :=
  ∀ (m : Memory) (fw fh w h : Nat),
    (reformat m fw fh w h).length = w * h ∧
    ∀ x y, x < w → y < h →
      (reformat m fw fh w h)[y * w + x]? = some
        (if x < fw ∧ y < fh then
          { r := frameRead m (3 * (y * fw + x)), g := frameRead m (3 * (y * fw + x) + 1),
            b := frameRead m (3 * (y * fw + x) + 2) }
        else { r := 0#8, g := 0#8, b := 0#8 })

/-- 70 R266: re-formatting reads no byte at 3·fw·fh or above. -/
def Obligations.ReformatReadsOnlyTheFrame : Prop :=
  ∀ (m m' : Memory) (fw fh w h : Nat),
    (∀ a, a < 3 * (fw * fh) → frameRead m a = frameRead m' a) → reformat m fw fh w h = reformat m' fw fh w h

/-- 41_palette_indexer R120 and R123: the quantizer is asked once, with PIX, the dimensions and QUALITY; its palette has 1 to 256
entries; INDEX_BUF is MAP of each pixel, and USED marks exactly the indices that occur. -/
def Obligations.IndexFrameMapsEveryPixel : Prop :=
  ∀ (s : State) (fw fh : Nat),
    let t := indexFrame fw fh s
    let q := quantizeCall s { pixels := t.frame.pix, width := s.width, height := s.height, quality := s.quality }
    t.frame.pix = reformat s.frameMem fw fh s.width.toNat s.height.toNat ∧
    t.frame.pal = answerPalette q ∧ t.frame.palLen = t.frame.pal.length ∧ 1 ≤ t.frame.palLen ∧ t.frame.palLen ≤ 256 ∧
    t.frame.indexBuf.length = t.frame.pix.length ∧
    (∀ (i : Nat) (p : Rgb), t.frame.pix[i]? = some p → t.frame.indexBuf[i]? = some (answerMap q p)) ∧
    (∀ k : Byte, t.frame.used.getLsbD k.toNat = true ↔ ∃ p ∈ t.frame.pix, answerMap q p = k) ∧
    t = { s with frame := t.frame }

/-- 41_palette_indexer R125: with VALID = 1 TRANS_INDEX is the nearest used entry, the lowest on equal distances, 0 when none is
used; with VALID = 0 nothing changes. -/
def Obligations.TransparentIndexIsTheNearestUsedEntry : Prop :=
  ∀ s : State, s.frame.palLen = s.frame.pal.length → s.frame.palLen ≤ 256 →
    let t := findTransparent s
    (s.transp.valid = false → t = s) ∧
    (s.transp.valid = true →
      t = { s with transIndex := t.transIndex } ∧
      isNearestUsed s.transp.colour s.frame.used s.frame.pal t.transIndex)

/-! ## The block writers (43_container) -/

/-- 43_container R189. -/
def Obligations.ScreenDescriptorBytes : Prop :=
  ∀ s : State, lsdBytes s
    = [BitVec.ofNat 8 (s.width.toNat % 256), BitVec.ofNat 8 (s.width.toNat / 256), BitVec.ofNat 8 (s.height.toNat % 256),
        BitVec.ofNat 8 (s.height.toNat / 256), 0xF7#8, 0x00#8, 0x00#8]

/-- 43_container R190: 768 bytes, the entries as red, green, blue, then zeros. -/
def Obligations.PaletteIsPaddedTo768Bytes : Prop :=
  ∀ f : FrameUnit, f.palLen = f.pal.length → f.palLen ≤ 256 →
    (paletteBytes f).length = 768 ∧
    (∀ (i : Nat) (p : Rgb), f.pal[i]? = some p →
      (paletteBytes f)[3 * i]? = some p.r ∧ (paletteBytes f)[3 * i + 1]? = some p.g ∧ (paletteBytes f)[3 * i + 2]? = some p.b) ∧
    (∀ j, 3 * f.palLen ≤ j → j < 768 → (paletteBytes f)[j]? = some 0x00#8)

/-- 43_container R192 and R193. -/
def Obligations.ControlBlockBytes : Prop :=
  ∀ s : State, gceBytes s
    = [0x21#8, 0xF9#8, 0x04#8,
        BitVec.ofNat 8
          (4 * (if 0 ≤ s.dispose.toInt then s.dispose.toNat % 8 else if s.transp.valid then 2 else 0)
            + (if s.transp.valid then 1 else 0)),
        BitVec.ofNat 8 (s.delayCs.toNat % 256), BitVec.ofNat 8 (s.delayCs.toNat / 256), s.transIndex, 0x00#8]

/-- 43_container R191 and R194, and the order of the blocks of a frame (R182, R198). -/
def Obligations.FrameBlocksInTheirOrder : Prop :=
  ∀ (s : State) (data : List Byte),
    let loop : List Byte := [0x21#8, 0xFF#8, 0x0B#8, 0x4E#8, 0x45#8, 0x54#8, 0x53#8, 0x43#8, 0x41#8, 0x50#8, 0x45#8, 0x32#8,
      0x2E#8, 0x30#8, 0x03#8, 0x01#8, BitVec.ofNat 8 (s.repeatCount.toNat % 256),
      BitVec.ofNat 8 (s.repeatCount.toNat / 256 % 256), 0x00#8]
    let desc := fun packed : Byte => [0x2C#8, 0x00#8, 0x00#8, 0x00#8, 0x00#8, BitVec.ofNat 8 (s.width.toNat % 256),
      BitVec.ofNat 8 (s.width.toNat / 256), BitVec.ofNat 8 (s.height.toNat % 256), BitVec.ofNat 8 (s.height.toNat / 256),
      packed]
    (s.lifecycle = .startedFirst → frameBytes s data
      = lsdBytes s ++ paletteBytes s.frame ++ (if 0 ≤ s.repeatCount.toInt then loop else []) ++ gceBytes s ++ desc 0x00#8
        ++ data) ∧
    (s.lifecycle = .startedSubseq → frameBytes s data = gceBytes s ++ desc 0x87#8 ++ paletteBytes s.frame ++ data)

/-- 43_container R198: what a session in which every command succeeded adds to the stream, with any frame memory and any further
sink answers before each command. `u` is the state the first frame finds; the looping extension depends on its REPEAT. -/
def Obligations.SuccessfulSessionFollowsTheGrammar : Prop :=
  ∀ (s t : State) (own : Bool) (first last : CommandCall) (calls : List CommandCall),
    s.running = none → (s.lifecycle = .unstarted ∨ s.lifecycle = .finished) →
    first.instr = .start own → last.instr = .finish → (∀ c ∈ calls, c.instr ≠ .finish) →
    runAllOk (first :: calls ++ [last]) s = some t →
    ∃ (body : List Byte) (frames : List (List Byte)),
      t.stream = s.stream ++ [0x47#8, 0x49#8, 0x46#8, 0x38#8, 0x39#8, 0x61#8] ++ body ++ [0x3B#8] ∧
      body = frames.flatten ∧ frames.length = (calls.filter fun c => c.instr = .addFrame).length ∧
      (∀ (f : List Byte) (later : List (List Byte)), frames = f :: later →
        ∃ (w h : Half) (pre : List CommandCall) (c : CommandCall) (post : List CommandCall) (u : State),
          calls = pre ++ c :: post ∧ c.instr = .addFrame ∧ (∀ d ∈ pre, d.instr ≠ .addFrame) ∧
          runAllOk (first :: pre) s = some u ∧ isFirstFrame w h u.repeatCount f ∧ ∀ g ∈ later, isLaterFrame w h g)

/-! ## The LZW unit (42_lzw) -/

/-- 42_lzw R147: the probe always ends, so LOOKUP answers a slot that is EMPTY or one that holds the pair's key. -/
def Obligations.LookupEndsAtTheKeyOrAnEmptySlot : Prop :=
  ∀ (u : LzwUnit) (c : Nat), cellsWf u.htab → (∀ e ∈ u.htab, e.1 < 5003) → u.htab.length < 5003 → u.ent < 4096 → c < 256 →
    match lookupPair u c with
    | .hit i code => i < 5003 ∧ cellsGet u.htab i = some (4096 * c + u.ent) ∧ cellsGet u.codetab i = some code ∨
        (i < 5003 ∧ cellsGet u.htab i = some (4096 * c + u.ent) ∧ cellsGet u.codetab i = none ∧ code = 0)
    | .miss i => i < 5003 ∧ cellsGet u.htab i = none

/-- 42_lzw R158: the hash table is not observable: the data region is that of the abstract dictionary, packed and cut into
sub-blocks. -/
def Obligations.DataRegionIsThatOfTheAbstractDictionary : Prop :=
  ∀ (cd : Nat) (indices : List Byte) (u : LzwUnit), 1 ≤ cd → cd ≤ 8 → indices ≠ [] →
    (∀ c ∈ indices, c.toNat < 2 ^ max 2 cd) → (lzwEncode cd indices u).2 = absEncode (max 2 cd) indices

/-- 42_lzw R161: decoding a frame's data region gives its indices back exactly. -/
def Obligations.DecodingTheDataRegionGivesTheIndices : Prop :=
  ∀ (cd : Nat) (indices : List Byte) (u : LzwUnit), 1 ≤ cd → cd ≤ 8 → indices ≠ [] →
    (∀ c ∈ indices, c.toNat < 2 ^ max 2 cd) → decodeRegion (lzwEncode cd indices u).2 = some indices

/-- 42_lzw R160: the data region is mcs, then full sub-blocks of 254 bytes, one last sub-block of 1 to 254, then one zero-length
sub-block. -/
def Obligations.SubBlocksAreFullButTheLast : Prop :=
  ∀ (cd : Nat) (indices : List Byte) (u : LzwUnit), 1 ≤ cd → cd ≤ 8 → indices ≠ [] →
    (∀ c ∈ indices, c.toNat < 2 ^ max 2 cd) →
    ∃ (full : List (List Byte)) (last : List Byte),
      (lzwEncode cd indices u).2
        = BitVec.ofNat 8 (max 2 cd) :: (full.flatMap fun b => 254#8 :: b) ++ BitVec.ofNat 8 last.length :: last ++ [0x00#8] ∧
      (∀ b ∈ full, b.length = 254) ∧ 1 ≤ last.length ∧ last.length ≤ 254

/-- 42_lzw R159, of the codes that the unit's data region packs: every code fits its width, widths stay between INIT_BITS and 12,
the width drops only after a reset Clear, then to INIT_BITS, and a reset Clear is 12 bits wide. -/
def Obligations.CodeWidthsGrowAndDropOnlyAtAClear : Prop :=
  ∀ (cd : Nat) (indices : List Byte) (u : LzwUnit), 1 ≤ cd → cd ≤ 8 → indices ≠ [] →
    (∀ c ∈ indices, c.toNat < 2 ^ max 2 cd) →
    let mcs := max 2 cd
    let codes := absCodes mcs indices
    (lzwEncode cd indices u).2 = packRegion mcs codes ∧
    (∀ e ∈ codes, e.1 < 2 ^ e.2 ∧ mcs + 1 ≤ e.2 ∧ e.2 ≤ 12) ∧
    (∀ (pre post : List (Nat × Nat)) (e f : Nat × Nat), codes = pre ++ e :: f :: post →
      (e.2 ≤ f.2 ∨ (e.1 = 2 ^ mcs ∧ f.2 = mcs + 1)) ∧ (f.1 = 2 ^ mcs → f.2 = 12))

/-- 42_lzw R163, of the codes that the unit's data region packs: 4096 − (CLEAR + 2) + 1 data codes lie between consecutive Clears,
3839 for cd = 8. -/
def Obligations.ClearsComeAtTheResetCadence : Prop :=
  ∀ (cd : Nat) (indices : List Byte) (u : LzwUnit), 1 ≤ cd → cd ≤ 8 → indices ≠ [] →
    (∀ c ∈ indices, c.toNat < 2 ^ max 2 cd) →
    let mcs := max 2 cd
    let codes := absCodes mcs indices
    (lzwEncode cd indices u).2 = packRegion mcs codes ∧
    ∀ (pre mid post : List (Nat × Nat)) (w1 w2 : Nat),
      codes = pre ++ (2 ^ mcs, w1) :: mid ++ (2 ^ mcs, w2) :: post → (∀ e ∈ mid, e.1 ≠ 2 ^ mcs) →
      mid.length = 4096 - (2 ^ mcs + 2) + 1

/-! ## Rules of the whole machine -/

/-- 60 R246: no command takes a trap: every command, in every state, answers a next state. -/
def Obligations.EveryCommandAnswersANextState : Prop :=
  ∀ (i : Instr) (s : State), ∃ t, exec i s = .next t

/-- The frame of every command: ARG0 and ARG1 (10_state R25), every byte of frame memory (20_memory R61), the level of SINK_PRESENT,
the inputs, the host's last read and the parameters are unchanged; RESULT and the sink's log are not in it. -/
def Obligations.CommandsLeaveArgumentsAndFrameMemory : Prop :=
  ∀ (i : Instr) (s t : State), exec i s = .next t →
    t.arg0 = s.arg0 ∧ t.arg1 = s.arg1 ∧ (∀ a, frameRead t.frameMem a = frameRead s.frameMem a) ∧
    t.sink.present = s.sink.present ∧ t.inputs = s.inputs ∧ t.readData = s.readData ∧ t.maxPixels = s.maxPixels ∧
    t.quantTable = s.quantTable

/-- 10_state R26 to R34: each configuration register is written only by the commands its rule names. -/
def Obligations.RegistersAreWrittenOnlyByTheirCommands : Prop :=
  ∀ (i : Instr) (s t : State), exec i s = .next t →
    (t.lifecycle = s.lifecycle ∨ (∃ own, i = .start own) ∨ i = .addFrame ∨ i = .finish) ∧
    (t.delayCs = s.delayCs ∨ writesDelay i) ∧ (t.repeatCount = s.repeatCount ∨ writesRepeat i) ∧
    (t.dispose = s.dispose ∨ writesDispose i) ∧ (t.transp = s.transp ∨ writesTransp i) ∧
    ((t.width = s.width ∧ t.height = s.height ∧ t.sizeSet = s.sizeSet) ∨ writesSize i) ∧
    (t.quality = s.quality ∨ writesQuality i) ∧ (t.transIndex = s.transIndex ∨ writesTransIndex i) ∧
    (t.ownSink = s.ownSink ∨ writesOwnSink i)

/-- 43_container R180: the state machine, for every command that completes. -/
def Obligations.LifecycleFollowsTheStateMachine : Prop :=
  ∀ (i : Instr) (s t : State), exec i s = .next t → t.running = none →
    match i with
    | .start _ =>
      (s.lifecycle = .unstarted ∨ s.lifecycle = .finished →
        t.lifecycle = if t.result = .ok then .startedFirst else s.lifecycle) ∧
      (s.lifecycle = .startedFirst ∨ s.lifecycle = .startedSubseq → t.lifecycle = s.lifecycle ∧ t.result = .precond)
    | .addFrame =>
      (s.lifecycle = .unstarted ∨ s.lifecycle = .finished → t.lifecycle = s.lifecycle ∧ t.result = .precond) ∧
      (s.lifecycle = .startedFirst → t.lifecycle = if t.result = .ok then .startedSubseq else .startedFirst) ∧
      (s.lifecycle = .startedSubseq → t.lifecycle = .startedSubseq)
    | .finish =>
      (s.lifecycle = .unstarted ∨ s.lifecycle = .finished → t.lifecycle = s.lifecycle ∧ t.result = .precond) ∧
      (s.lifecycle = .startedFirst ∨ s.lifecycle = .startedSubseq → t.lifecycle = .finished)
    | .setSize =>
      t.lifecycle = s.lifecycle ∧ t.result = .ok ∧
      (s.lifecycle = .startedSubseq → t.width = s.width ∧ t.height = s.height ∧ t.sizeSet = s.sizeSet)
    | .setDelay => t.lifecycle = s.lifecycle ∧ t.result = .ok
    | .setRepeat => t.lifecycle = s.lifecycle ∧ t.result = .ok
    | .setDispose => t.lifecycle = s.lifecycle ∧ t.result = .ok
    | .setTransparent => t.lifecycle = s.lifecycle ∧ t.result = .ok
    | .clearTransparent => t.lifecycle = s.lifecycle ∧ t.result = .ok
    | .setQuality => t.lifecycle = s.lifecycle ∧ t.result = .ok

/-- 10_state R23: SINK_ERR and OVERRUN are sticky: a completed command sets SINK_ERR exactly with RESULT = SINK, sets OVERRUN never,
and only a START that passes its state check clears them. -/
def Obligations.StickyFlagsAreClearedOnlyByStart : Prop :=
  ∀ (i : Instr) (s t : State), exec i s = .next t → t.running = none →
    let cleared := ∃ own, i = .start own ∧ s.started = false
    (t.sinkErr = true ↔ t.result = .sink ∨ (s.sinkErr = true ∧ ¬ cleared)) ∧
    (t.overrun = true ↔ s.overrun = true ∧ ¬ cleared)

/-- 93 P7 with 10_state R38, R39 and 41_palette_indexer R126: what the memories that die with a frame hold before a command is
unobservable: the registers, the stream and the sink's operations after it are the same. -/
def Obligations.DeadMemoriesAreUnobservable : Prop :=
  ∀ (i : Instr) (s : State) (f : FrameUnit) (u : LzwUnit),
    visibleOutcome (exec i { s with frame := f, lzw := u }) = visibleOutcome (exec i s)

/-- 20_memory R67: bytes accepted stay: no step takes a byte out of the stream or changes one. -/
def Obligations.StreamOnlyGrows : Prop :=
  ∀ s t : State, s.Inv → step s = .next t → ∃ bytes, t.stream = s.stream ++ bytes

/-- A step takes one input, if there is one, and leaves the parameters of the machine alone (00_scope R9; log 2, 7, 8). -/
def Obligations.StepTakesOneInputAndKeepsParameters : Prop :=
  ∀ s t : State, step s = .next t →
    t.inputs = s.inputs.tail ∧ t.maxPixels = s.maxPixels ∧ t.quantTable = s.quantTable

/-- The invariant of the registers, frame memory and the running command is kept by every step, from every state that has it. -/
def Obligations.StepKeepsTheInvariant : Prop :=
  ∀ s t : State, s.Inv → step s = .next t → t.Inv

/-- The state after power-on reset has the invariant. -/
def Obligations.ResetHasTheInvariant : Prop := State.reset.Inv

/-- 10_state R21 and R38 to R42: every internal register and memory entry stays within its width and range, and no frame is
larger than MAX_PIXELS. -/
def Obligations.StepKeepsInternalWidths : Prop :=
  ∀ s t : State, s.InternalsFit → step s = .next t → t.InternalsFit

/-- The internal memories of the reset state, which the model chose (log 13), are within their widths. -/
def Obligations.ResetInternalsFit : Prop := State.reset.InternalsFit

/-- 00_scope R9 and 20_memory R66: the SINK_PRESENT input takes the level given, and changes nothing else; the sink's further
answers queue behind those not used, of an idle block with no other effect, and a waiting command goes on with them. That
answers are a queue is the model's choice (log 3), and that inputs are a list is (log 2). -/
def Obligations.SinkInputsReachTheSinkPort : Prop :=
  ∀ (s : State) (rest : List HostInput),
    (∀ level, s.inputs = .sinkPresent level :: rest →
      step s = .next { s with inputs := rest, sink := { s.sink with present := level } }) ∧
    (∀ answers, s.inputs = .sinkAnswers answers :: rest →
      (s.running = none →
        step s = .next { s with inputs := rest, sink := { s.sink with answers := s.sink.answers ++ answers } }) ∧
      (∀ r, s.running = some r →
        step s = resumeCommand r
          { s with inputs := rest, sink := { s.sink with answers := s.sink.answers ++ answers } }))

/-- 43_container R182 and R183 with 41_palette_indexer R120, R122, R123 and R125: what steps 1 to 3 of ADD_FRAME leave, W × H being
the session's size: the fixed one, else the frame's own. Nothing but SIZE, SIZE_SET, TRANS_INDEX and the PaletteIndexer's memories
changes. -/
def Obligations.FramePreparationFollowsStepsOneToThree : Prop :=
  ∀ s : State,
    let p := prepareFrame s
    let fw := s.arg0.toNat % 65536
    let fh := s.arg0.toNat / 65536
    let w : Half := if s.sizeSet then s.width else BitVec.ofNat 16 fw
    let h : Half := if s.sizeSet then s.height else BitVec.ofNat 16 fh
    let pix := reformat s.frameMem fw fh w.toNat h.toNat
    let q := quantizeCall s { pixels := pix, width := w, height := h, quality := s.quality }
    p = { s with width := w, height := h, sizeSet := true, transIndex := p.transIndex, frame := p.frame } ∧
    p.frame.pix = pix ∧ p.frame.pal = answerPalette q ∧ p.frame.palLen = p.frame.pal.length ∧
    p.frame.indexBuf = pix.map (answerMap q) ∧
    (∀ k : Byte, p.frame.used.getLsbD k.toNat = true ↔ ∃ c ∈ pix, answerMap q c = k) ∧
    (s.transp.valid = false → p.transIndex = s.transIndex) ∧
    (s.transp.valid = true → isNearestUsed s.transp.colour p.frame.used p.frame.pal p.transIndex)
end

