-- ==== Sys2Proof/Laws/Cells.lean ====
section
/-! SUPPORT. The laws of sparse memories and of frame memory: read after write, and every write keeps the canonical form. -/

namespace Sys2Proof.Machine

variable {α : Type}

@[simp] theorem cellsGet_nil (a : Nat) : cellsGet ([] : List (Nat × α)) a = none := rfl

theorem cellsGet_cons (k : Nat) (v : α) (m : List (Nat × α)) (a : Nat) :
    cellsGet ((k, v) :: m) a = if k = a then some v else cellsGet m a := rfl

/-- A read after a write to the same key gives the value written. -/
@[simp] theorem cellsGet_put_same (m : List (Nat × α)) (a : Nat) (v : α) : cellsGet (cellsPut m a v) a = some v := by
  induction m with
  | nil => simp [cellsPut, cellsGet]
  | cons c m ih =>
    obtain ⟨k, w⟩ := c
    by_cases h1 : a < k
    · simp [cellsPut, cellsGet, h1]
    · by_cases h2 : k = a
      · simp [cellsPut, cellsGet, h2]
      · simp [cellsPut, cellsGet, h1, h2, ih]

/-- A write leaves every other key alone. -/
theorem cellsGet_put_other (m : List (Nat × α)) {a b : Nat} (v : α) (h : b ≠ a) :
    cellsGet (cellsPut m a v) b = cellsGet m b := by
  have h' : a ≠ b := fun e => h e.symm
  induction m with
  | nil => simp [cellsPut, cellsGet, h']
  | cons c m ih =>
    obtain ⟨k, w⟩ := c
    by_cases h1 : a < k
    · simp [cellsPut, cellsGet, h1, h']
    · by_cases h2 : k = a
      · subst h2; simp [cellsPut, cellsGet, h']
      · simp [cellsPut, cellsGet, h1, h2, ih]

/-- What a written memory lists: the written pair, or a pair listed before. -/
theorem mem_cellsPut {m : List (Nat × α)} {a : Nat} {v : α} {c : Nat × α} (h : c ∈ cellsPut m a v) :
    c = (a, v) ∨ c ∈ m := by
  induction m with
  | nil => simpa [cellsPut] using h
  | cons d m ih =>
    obtain ⟨k, w⟩ := d
    by_cases h1 : a < k
    · simpa [cellsPut, h1] using h
    · by_cases h2 : k = a
      · rw [cellsPut, if_neg h1, if_pos h2, List.mem_cons] at h
        exact h.imp_right (fun h => List.mem_cons_of_mem _ h)
      · rw [cellsPut, if_neg h1, if_neg h2, List.mem_cons] at h
        rcases h with h | h
        · exact .inr (h ▸ List.mem_cons_self)
        · exact (ih h).imp_right (fun h => List.mem_cons_of_mem _ h)

/-- A write keeps the canonical form. -/
theorem cellsPut_wf {m : List (Nat × α)} (a : Nat) (v : α) (h : cellsWf m) : cellsWf (cellsPut m a v) := by
  induction m with
  | nil => simp [cellsPut, cellsWf]
  | cons c m ih =>
    obtain ⟨k, w⟩ := c
    rw [cellsWf, List.pairwise_cons] at h
    by_cases h1 : a < k
    · simp only [cellsPut, h1, if_true, cellsWf, List.pairwise_cons, List.mem_cons]
      refine ⟨?_, h.1, h.2⟩
      rintro d (rfl | hd)
      · exact h1
      · exact h1.trans (h.1 d hd)
    · by_cases h2 : k = a
      · subst h2
        simp only [cellsPut, Nat.lt_irrefl, if_false, if_true, cellsWf, List.pairwise_cons]
        exact h
      · simp only [cellsPut, h1, h2, if_false, cellsWf, List.pairwise_cons]
        refine ⟨fun d hd => ?_, ih h.2⟩
        rcases mem_cellsPut hd with rfl | hd
        · exact Nat.lt_of_le_of_ne (Nat.le_of_not_lt h1) h2
        · exact h.1 d hd

/-- The frame producer's write keeps frame memory canonical. -/
theorem frameStore_wf (a : Nat) (v : Byte) (s : State) (h : Memory.wf s.frameMem) :
    Memory.wf (frameStore a v s).frameMem :=
  cellsPut_wf a v h

/-- Frame memory at reset is canonical. -/
theorem reset_frameMem_wf : Memory.wf State.reset.frameMem := List.Pairwise.nil

@[simp] theorem frameRead_put_same (m : Memory) (a : Nat) (v : Byte) : frameRead (cellsPut m a v) a = v := by
  simp [frameRead]

theorem frameRead_put_other (m : Memory) {a b : Nat} (v : Byte) (h : b ≠ a) :
    frameRead (cellsPut m a v) b = frameRead m b := by
  simp [frameRead, cellsGet_put_other m v h]

end Sys2Proof.Machine
end

