-- ==== Sys2Proof/Laws/State.lean ====
section
/-! SUPPORT. One lemma per field of State per shared update, each true by rfl, so that no later proof unfolds a record
update. -/

namespace Sys2Proof.Machine

/-! ## finishCmd -/

@[simp] theorem finishCmd_arg0 (code : ResultCode) (s : State) : (finishCmd code s).arg0 = s.arg0 := rfl
@[simp] theorem finishCmd_arg1 (code : ResultCode) (s : State) : (finishCmd code s).arg1 = s.arg1 := rfl
@[simp] theorem finishCmd_lifecycle (code : ResultCode) (s : State) : (finishCmd code s).lifecycle = s.lifecycle := rfl
@[simp] theorem finishCmd_result (code : ResultCode) (s : State) : (finishCmd code s).result = code := rfl
@[simp] theorem finishCmd_sinkErr (code : ResultCode) (s : State) : (finishCmd code s).sinkErr = s.sinkErr := rfl
@[simp] theorem finishCmd_overrun (code : ResultCode) (s : State) : (finishCmd code s).overrun = s.overrun := rfl
@[simp] theorem finishCmd_running (code : ResultCode) (s : State) : (finishCmd code s).running = none := rfl
@[simp] theorem finishCmd_delayCs (code : ResultCode) (s : State) : (finishCmd code s).delayCs = s.delayCs := rfl
@[simp] theorem finishCmd_repeatCount (code : ResultCode) (s : State) : (finishCmd code s).repeatCount = s.repeatCount := rfl
@[simp] theorem finishCmd_dispose (code : ResultCode) (s : State) : (finishCmd code s).dispose = s.dispose := rfl
@[simp] theorem finishCmd_transp (code : ResultCode) (s : State) : (finishCmd code s).transp = s.transp := rfl
@[simp] theorem finishCmd_width (code : ResultCode) (s : State) : (finishCmd code s).width = s.width := rfl
@[simp] theorem finishCmd_height (code : ResultCode) (s : State) : (finishCmd code s).height = s.height := rfl
@[simp] theorem finishCmd_quality (code : ResultCode) (s : State) : (finishCmd code s).quality = s.quality := rfl
@[simp] theorem finishCmd_transIndex (code : ResultCode) (s : State) : (finishCmd code s).transIndex = s.transIndex := rfl
@[simp] theorem finishCmd_sizeSet (code : ResultCode) (s : State) : (finishCmd code s).sizeSet = s.sizeSet := rfl
@[simp] theorem finishCmd_ownSink (code : ResultCode) (s : State) : (finishCmd code s).ownSink = s.ownSink := rfl
@[simp] theorem finishCmd_frame (code : ResultCode) (s : State) : (finishCmd code s).frame = s.frame := rfl
@[simp] theorem finishCmd_lzw (code : ResultCode) (s : State) : (finishCmd code s).lzw = s.lzw := rfl
@[simp] theorem finishCmd_frameMem (code : ResultCode) (s : State) : (finishCmd code s).frameMem = s.frameMem := rfl
@[simp] theorem finishCmd_sink (code : ResultCode) (s : State) : (finishCmd code s).sink = s.sink := rfl
@[simp] theorem finishCmd_inputs (code : ResultCode) (s : State) : (finishCmd code s).inputs = s.inputs := rfl
@[simp] theorem finishCmd_readData (code : ResultCode) (s : State) : (finishCmd code s).readData = s.readData := rfl
@[simp] theorem finishCmd_maxPixels (code : ResultCode) (s : State) : (finishCmd code s).maxPixels = s.maxPixels := rfl
@[simp] theorem finishCmd_quantTable (code : ResultCode) (s : State) : (finishCmd code s).quantTable = s.quantTable := rfl

/-! ## raiseCause -/

@[simp] theorem raiseCause_arg0 (c : Cause) (s : State) : (raiseCause c s).arg0 = s.arg0 := rfl
@[simp] theorem raiseCause_arg1 (c : Cause) (s : State) : (raiseCause c s).arg1 = s.arg1 := rfl
@[simp] theorem raiseCause_lifecycle (c : Cause) (s : State) : (raiseCause c s).lifecycle = s.lifecycle := rfl
@[simp] theorem raiseCause_result (c : Cause) (s : State) : (raiseCause c s).result = causeCode c := rfl
@[simp] theorem raiseCause_sinkErr (c : Cause) (s : State) :
    (raiseCause c s).sinkErr = (s.sinkErr || decide (c = .sinkError)) := rfl
@[simp] theorem raiseCause_overrun (c : Cause) (s : State) : (raiseCause c s).overrun = s.overrun := rfl
@[simp] theorem raiseCause_running (c : Cause) (s : State) : (raiseCause c s).running = none := rfl
@[simp] theorem raiseCause_delayCs (c : Cause) (s : State) : (raiseCause c s).delayCs = s.delayCs := rfl
@[simp] theorem raiseCause_repeatCount (c : Cause) (s : State) : (raiseCause c s).repeatCount = s.repeatCount := rfl
@[simp] theorem raiseCause_dispose (c : Cause) (s : State) : (raiseCause c s).dispose = s.dispose := rfl
@[simp] theorem raiseCause_transp (c : Cause) (s : State) : (raiseCause c s).transp = s.transp := rfl
@[simp] theorem raiseCause_width (c : Cause) (s : State) : (raiseCause c s).width = s.width := rfl
@[simp] theorem raiseCause_height (c : Cause) (s : State) : (raiseCause c s).height = s.height := rfl
@[simp] theorem raiseCause_quality (c : Cause) (s : State) : (raiseCause c s).quality = s.quality := rfl
@[simp] theorem raiseCause_transIndex (c : Cause) (s : State) : (raiseCause c s).transIndex = s.transIndex := rfl
@[simp] theorem raiseCause_sizeSet (c : Cause) (s : State) : (raiseCause c s).sizeSet = s.sizeSet := rfl
@[simp] theorem raiseCause_ownSink (c : Cause) (s : State) : (raiseCause c s).ownSink = s.ownSink := rfl
@[simp] theorem raiseCause_frame (c : Cause) (s : State) : (raiseCause c s).frame = s.frame := rfl
@[simp] theorem raiseCause_lzw (c : Cause) (s : State) : (raiseCause c s).lzw = s.lzw := rfl
@[simp] theorem raiseCause_frameMem (c : Cause) (s : State) : (raiseCause c s).frameMem = s.frameMem := rfl
@[simp] theorem raiseCause_sink (c : Cause) (s : State) : (raiseCause c s).sink = s.sink := rfl
@[simp] theorem raiseCause_inputs (c : Cause) (s : State) : (raiseCause c s).inputs = s.inputs := rfl
@[simp] theorem raiseCause_readData (c : Cause) (s : State) : (raiseCause c s).readData = s.readData := rfl
@[simp] theorem raiseCause_maxPixels (c : Cause) (s : State) : (raiseCause c s).maxPixels = s.maxPixels := rfl
@[simp] theorem raiseCause_quantTable (c : Cause) (s : State) : (raiseCause c s).quantTable = s.quantTable := rfl

/-! ## clearSticky -/

@[simp] theorem clearSticky_arg0 (s : State) : (clearSticky s).arg0 = s.arg0 := rfl
@[simp] theorem clearSticky_arg1 (s : State) : (clearSticky s).arg1 = s.arg1 := rfl
@[simp] theorem clearSticky_lifecycle (s : State) : (clearSticky s).lifecycle = s.lifecycle := rfl
@[simp] theorem clearSticky_result (s : State) : (clearSticky s).result = s.result := rfl
@[simp] theorem clearSticky_sinkErr (s : State) : (clearSticky s).sinkErr = false := rfl
@[simp] theorem clearSticky_overrun (s : State) : (clearSticky s).overrun = false := rfl
@[simp] theorem clearSticky_running (s : State) : (clearSticky s).running = s.running := rfl
@[simp] theorem clearSticky_delayCs (s : State) : (clearSticky s).delayCs = s.delayCs := rfl
@[simp] theorem clearSticky_repeatCount (s : State) : (clearSticky s).repeatCount = s.repeatCount := rfl
@[simp] theorem clearSticky_dispose (s : State) : (clearSticky s).dispose = s.dispose := rfl
@[simp] theorem clearSticky_transp (s : State) : (clearSticky s).transp = s.transp := rfl
@[simp] theorem clearSticky_width (s : State) : (clearSticky s).width = s.width := rfl
@[simp] theorem clearSticky_height (s : State) : (clearSticky s).height = s.height := rfl
@[simp] theorem clearSticky_quality (s : State) : (clearSticky s).quality = s.quality := rfl
@[simp] theorem clearSticky_transIndex (s : State) : (clearSticky s).transIndex = s.transIndex := rfl
@[simp] theorem clearSticky_sizeSet (s : State) : (clearSticky s).sizeSet = s.sizeSet := rfl
@[simp] theorem clearSticky_ownSink (s : State) : (clearSticky s).ownSink = s.ownSink := rfl
@[simp] theorem clearSticky_frame (s : State) : (clearSticky s).frame = s.frame := rfl
@[simp] theorem clearSticky_lzw (s : State) : (clearSticky s).lzw = s.lzw := rfl
@[simp] theorem clearSticky_frameMem (s : State) : (clearSticky s).frameMem = s.frameMem := rfl
@[simp] theorem clearSticky_sink (s : State) : (clearSticky s).sink = s.sink := rfl
@[simp] theorem clearSticky_inputs (s : State) : (clearSticky s).inputs = s.inputs := rfl
@[simp] theorem clearSticky_readData (s : State) : (clearSticky s).readData = s.readData := rfl
@[simp] theorem clearSticky_maxPixels (s : State) : (clearSticky s).maxPixels = s.maxPixels := rfl
@[simp] theorem clearSticky_quantTable (s : State) : (clearSticky s).quantTable = s.quantTable := rfl

/-! ## sessionReset -/

@[simp] theorem sessionReset_arg0 (s : State) : (sessionReset s).arg0 = s.arg0 := rfl
@[simp] theorem sessionReset_arg1 (s : State) : (sessionReset s).arg1 = s.arg1 := rfl
@[simp] theorem sessionReset_lifecycle (s : State) : (sessionReset s).lifecycle = s.lifecycle := rfl
@[simp] theorem sessionReset_result (s : State) : (sessionReset s).result = s.result := rfl
@[simp] theorem sessionReset_sinkErr (s : State) : (sessionReset s).sinkErr = s.sinkErr := rfl
@[simp] theorem sessionReset_overrun (s : State) : (sessionReset s).overrun = s.overrun := rfl
@[simp] theorem sessionReset_running (s : State) : (sessionReset s).running = s.running := rfl
@[simp] theorem sessionReset_delayCs (s : State) : (sessionReset s).delayCs = 0#16 := rfl
@[simp] theorem sessionReset_repeatCount (s : State) : (sessionReset s).repeatCount = 0xFFFFFFFF#32 := rfl
@[simp] theorem sessionReset_dispose (s : State) : (sessionReset s).dispose = 0xFFFFFFFF#32 := rfl
@[simp] theorem sessionReset_transp (s : State) :
    (sessionReset s).transp = { valid := false, colour := { r := 0#8, g := 0#8, b := 0#8 } } := rfl
@[simp] theorem sessionReset_width (s : State) : (sessionReset s).width = 0#16 := rfl
@[simp] theorem sessionReset_height (s : State) : (sessionReset s).height = 0#16 := rfl
@[simp] theorem sessionReset_quality (s : State) : (sessionReset s).quality = Config.defaultQuality := rfl
@[simp] theorem sessionReset_transIndex (s : State) : (sessionReset s).transIndex = 0#8 := rfl
@[simp] theorem sessionReset_sizeSet (s : State) : (sessionReset s).sizeSet = false := rfl
@[simp] theorem sessionReset_ownSink (s : State) : (sessionReset s).ownSink = false := rfl
@[simp] theorem sessionReset_frame (s : State) : (sessionReset s).frame = s.frame := rfl
@[simp] theorem sessionReset_lzw (s : State) : (sessionReset s).lzw = s.lzw := rfl
@[simp] theorem sessionReset_frameMem (s : State) : (sessionReset s).frameMem = s.frameMem := rfl
@[simp] theorem sessionReset_sink (s : State) : (sessionReset s).sink = s.sink := rfl
@[simp] theorem sessionReset_inputs (s : State) : (sessionReset s).inputs = s.inputs := rfl
@[simp] theorem sessionReset_readData (s : State) : (sessionReset s).readData = s.readData := rfl
@[simp] theorem sessionReset_maxPixels (s : State) : (sessionReset s).maxPixels = s.maxPixels := rfl
@[simp] theorem sessionReset_quantTable (s : State) : (sessionReset s).quantTable = s.quantTable := rfl

/-! ## resetBlock -/

@[simp] theorem resetBlock_arg0 (s : State) : (resetBlock s).arg0 = 0#32 := rfl
@[simp] theorem resetBlock_arg1 (s : State) : (resetBlock s).arg1 = 0#32 := rfl
@[simp] theorem resetBlock_lifecycle (s : State) : (resetBlock s).lifecycle = .unstarted := rfl
@[simp] theorem resetBlock_result (s : State) : (resetBlock s).result = .ok := rfl
@[simp] theorem resetBlock_sinkErr (s : State) : (resetBlock s).sinkErr = false := rfl
@[simp] theorem resetBlock_overrun (s : State) : (resetBlock s).overrun = false := rfl
@[simp] theorem resetBlock_running (s : State) : (resetBlock s).running = none := rfl
@[simp] theorem resetBlock_delayCs (s : State) : (resetBlock s).delayCs = 0#16 := rfl
@[simp] theorem resetBlock_repeatCount (s : State) : (resetBlock s).repeatCount = 0xFFFFFFFF#32 := rfl
@[simp] theorem resetBlock_dispose (s : State) : (resetBlock s).dispose = 0xFFFFFFFF#32 := rfl
@[simp] theorem resetBlock_transp (s : State) :
    (resetBlock s).transp = { valid := false, colour := { r := 0#8, g := 0#8, b := 0#8 } } := rfl
@[simp] theorem resetBlock_width (s : State) : (resetBlock s).width = 0#16 := rfl
@[simp] theorem resetBlock_height (s : State) : (resetBlock s).height = 0#16 := rfl
@[simp] theorem resetBlock_quality (s : State) : (resetBlock s).quality = Config.defaultQuality := rfl
@[simp] theorem resetBlock_transIndex (s : State) : (resetBlock s).transIndex = 0#8 := rfl
@[simp] theorem resetBlock_sizeSet (s : State) : (resetBlock s).sizeSet = false := rfl
@[simp] theorem resetBlock_ownSink (s : State) : (resetBlock s).ownSink = false := rfl
@[simp] theorem resetBlock_frame (s : State) : (resetBlock s).frame = FrameUnit.reset := rfl
@[simp] theorem resetBlock_lzw (s : State) : (resetBlock s).lzw = LzwUnit.reset := rfl
@[simp] theorem resetBlock_frameMem (s : State) : (resetBlock s).frameMem = s.frameMem := rfl
@[simp] theorem resetBlock_sink (s : State) : (resetBlock s).sink = s.sink := rfl
@[simp] theorem resetBlock_inputs (s : State) : (resetBlock s).inputs = s.inputs := rfl
@[simp] theorem resetBlock_readData (s : State) : (resetBlock s).readData = s.readData := rfl
@[simp] theorem resetBlock_maxPixels (s : State) : (resetBlock s).maxPixels = s.maxPixels := rfl
@[simp] theorem resetBlock_quantTable (s : State) : (resetBlock s).quantTable = s.quantTable := rfl

/-! ## frameStore -/

@[simp] theorem frameStore_arg0 (a : Nat) (v : Byte) (s : State) : (frameStore a v s).arg0 = s.arg0 := rfl
@[simp] theorem frameStore_arg1 (a : Nat) (v : Byte) (s : State) : (frameStore a v s).arg1 = s.arg1 := rfl
@[simp] theorem frameStore_lifecycle (a : Nat) (v : Byte) (s : State) : (frameStore a v s).lifecycle = s.lifecycle := rfl
@[simp] theorem frameStore_result (a : Nat) (v : Byte) (s : State) : (frameStore a v s).result = s.result := rfl
@[simp] theorem frameStore_sinkErr (a : Nat) (v : Byte) (s : State) : (frameStore a v s).sinkErr = s.sinkErr := rfl
@[simp] theorem frameStore_overrun (a : Nat) (v : Byte) (s : State) : (frameStore a v s).overrun = s.overrun := rfl
@[simp] theorem frameStore_running (a : Nat) (v : Byte) (s : State) : (frameStore a v s).running = s.running := rfl
@[simp] theorem frameStore_delayCs (a : Nat) (v : Byte) (s : State) : (frameStore a v s).delayCs = s.delayCs := rfl
@[simp] theorem frameStore_repeatCount (a : Nat) (v : Byte) (s : State) :
    (frameStore a v s).repeatCount = s.repeatCount := rfl
@[simp] theorem frameStore_dispose (a : Nat) (v : Byte) (s : State) : (frameStore a v s).dispose = s.dispose := rfl
@[simp] theorem frameStore_transp (a : Nat) (v : Byte) (s : State) : (frameStore a v s).transp = s.transp := rfl
@[simp] theorem frameStore_width (a : Nat) (v : Byte) (s : State) : (frameStore a v s).width = s.width := rfl
@[simp] theorem frameStore_height (a : Nat) (v : Byte) (s : State) : (frameStore a v s).height = s.height := rfl
@[simp] theorem frameStore_quality (a : Nat) (v : Byte) (s : State) : (frameStore a v s).quality = s.quality := rfl
@[simp] theorem frameStore_transIndex (a : Nat) (v : Byte) (s : State) : (frameStore a v s).transIndex = s.transIndex := rfl
@[simp] theorem frameStore_sizeSet (a : Nat) (v : Byte) (s : State) : (frameStore a v s).sizeSet = s.sizeSet := rfl
@[simp] theorem frameStore_ownSink (a : Nat) (v : Byte) (s : State) : (frameStore a v s).ownSink = s.ownSink := rfl
@[simp] theorem frameStore_frame (a : Nat) (v : Byte) (s : State) : (frameStore a v s).frame = s.frame := rfl
@[simp] theorem frameStore_lzw (a : Nat) (v : Byte) (s : State) : (frameStore a v s).lzw = s.lzw := rfl
@[simp] theorem frameStore_frameMem (a : Nat) (v : Byte) (s : State) :
    (frameStore a v s).frameMem = cellsPut s.frameMem a v := rfl
@[simp] theorem frameStore_sink (a : Nat) (v : Byte) (s : State) : (frameStore a v s).sink = s.sink := rfl
@[simp] theorem frameStore_inputs (a : Nat) (v : Byte) (s : State) : (frameStore a v s).inputs = s.inputs := rfl
@[simp] theorem frameStore_readData (a : Nat) (v : Byte) (s : State) : (frameStore a v s).readData = s.readData := rfl
@[simp] theorem frameStore_maxPixels (a : Nat) (v : Byte) (s : State) : (frameStore a v s).maxPixels = s.maxPixels := rfl
@[simp] theorem frameStore_quantTable (a : Nat) (v : Byte) (s : State) : (frameStore a v s).quantTable = s.quantTable := rfl

/-! ## dropCommand -/

@[simp] theorem dropCommand_arg0 (r : Running) (s : State) : (dropCommand r s).arg0 = s.arg0 := rfl
@[simp] theorem dropCommand_arg1 (r : Running) (s : State) : (dropCommand r s).arg1 = s.arg1 := rfl
@[simp] theorem dropCommand_lifecycle (r : Running) (s : State) : (dropCommand r s).lifecycle = s.lifecycle := rfl
@[simp] theorem dropCommand_result (r : Running) (s : State) : (dropCommand r s).result = s.result := rfl
@[simp] theorem dropCommand_sinkErr (r : Running) (s : State) : (dropCommand r s).sinkErr = s.sinkErr := rfl
@[simp] theorem dropCommand_overrun (r : Running) (s : State) : (dropCommand r s).overrun = true := rfl
@[simp] theorem dropCommand_running (r : Running) (s : State) :
    (dropCommand r s).running = some { r with dropped := true } := rfl
@[simp] theorem dropCommand_delayCs (r : Running) (s : State) : (dropCommand r s).delayCs = s.delayCs := rfl
@[simp] theorem dropCommand_repeatCount (r : Running) (s : State) : (dropCommand r s).repeatCount = s.repeatCount := rfl
@[simp] theorem dropCommand_dispose (r : Running) (s : State) : (dropCommand r s).dispose = s.dispose := rfl
@[simp] theorem dropCommand_transp (r : Running) (s : State) : (dropCommand r s).transp = s.transp := rfl
@[simp] theorem dropCommand_width (r : Running) (s : State) : (dropCommand r s).width = s.width := rfl
@[simp] theorem dropCommand_height (r : Running) (s : State) : (dropCommand r s).height = s.height := rfl
@[simp] theorem dropCommand_quality (r : Running) (s : State) : (dropCommand r s).quality = s.quality := rfl
@[simp] theorem dropCommand_transIndex (r : Running) (s : State) : (dropCommand r s).transIndex = s.transIndex := rfl
@[simp] theorem dropCommand_sizeSet (r : Running) (s : State) : (dropCommand r s).sizeSet = s.sizeSet := rfl
@[simp] theorem dropCommand_ownSink (r : Running) (s : State) : (dropCommand r s).ownSink = s.ownSink := rfl
@[simp] theorem dropCommand_frame (r : Running) (s : State) : (dropCommand r s).frame = s.frame := rfl
@[simp] theorem dropCommand_lzw (r : Running) (s : State) : (dropCommand r s).lzw = s.lzw := rfl
@[simp] theorem dropCommand_frameMem (r : Running) (s : State) : (dropCommand r s).frameMem = s.frameMem := rfl
@[simp] theorem dropCommand_sink (r : Running) (s : State) : (dropCommand r s).sink = s.sink := rfl
@[simp] theorem dropCommand_inputs (r : Running) (s : State) : (dropCommand r s).inputs = s.inputs := rfl
@[simp] theorem dropCommand_readData (r : Running) (s : State) : (dropCommand r s).readData = s.readData := rfl
@[simp] theorem dropCommand_maxPixels (r : Running) (s : State) : (dropCommand r s).maxPixels = s.maxPixels := rfl
@[simp] theorem dropCommand_quantTable (r : Running) (s : State) : (dropCommand r s).quantTable = s.quantTable := rfl

/-! ## waitForSink -/

@[simp] theorem waitForSink_arg0 (i : Instr) (p : SinkPort) (s : State) : (waitForSink i s p).arg0 = s.arg0 := rfl
@[simp] theorem waitForSink_arg1 (i : Instr) (p : SinkPort) (s : State) : (waitForSink i s p).arg1 = s.arg1 := rfl
@[simp] theorem waitForSink_lifecycle (i : Instr) (p : SinkPort) (s : State) :
    (waitForSink i s p).lifecycle = s.lifecycle := rfl
@[simp] theorem waitForSink_result (i : Instr) (p : SinkPort) (s : State) : (waitForSink i s p).result = s.result := rfl
@[simp] theorem waitForSink_sinkErr (i : Instr) (p : SinkPort) (s : State) : (waitForSink i s p).sinkErr = s.sinkErr := rfl
@[simp] theorem waitForSink_overrun (i : Instr) (p : SinkPort) (s : State) : (waitForSink i s p).overrun = s.overrun := rfl
@[simp] theorem waitForSink_running (i : Instr) (p : SinkPort) (s : State) :
    (waitForSink i s p).running = some { instr := i, arg0 := s.arg0, arg1 := s.arg1, present := s.sink.present, answered := p.log.length - s.sink.log.length, dropped := false } := rfl
@[simp] theorem waitForSink_delayCs (i : Instr) (p : SinkPort) (s : State) : (waitForSink i s p).delayCs = s.delayCs := rfl
@[simp] theorem waitForSink_repeatCount (i : Instr) (p : SinkPort) (s : State) :
    (waitForSink i s p).repeatCount = s.repeatCount := rfl
@[simp] theorem waitForSink_dispose (i : Instr) (p : SinkPort) (s : State) : (waitForSink i s p).dispose = s.dispose := rfl
@[simp] theorem waitForSink_transp (i : Instr) (p : SinkPort) (s : State) : (waitForSink i s p).transp = s.transp := rfl
@[simp] theorem waitForSink_width (i : Instr) (p : SinkPort) (s : State) : (waitForSink i s p).width = s.width := rfl
@[simp] theorem waitForSink_height (i : Instr) (p : SinkPort) (s : State) : (waitForSink i s p).height = s.height := rfl
@[simp] theorem waitForSink_quality (i : Instr) (p : SinkPort) (s : State) : (waitForSink i s p).quality = s.quality := rfl
@[simp] theorem waitForSink_transIndex (i : Instr) (p : SinkPort) (s : State) :
    (waitForSink i s p).transIndex = s.transIndex := rfl
@[simp] theorem waitForSink_sizeSet (i : Instr) (p : SinkPort) (s : State) : (waitForSink i s p).sizeSet = s.sizeSet := rfl
@[simp] theorem waitForSink_ownSink (i : Instr) (p : SinkPort) (s : State) : (waitForSink i s p).ownSink = s.ownSink := rfl
@[simp] theorem waitForSink_frame (i : Instr) (p : SinkPort) (s : State) : (waitForSink i s p).frame = s.frame := rfl
@[simp] theorem waitForSink_lzw (i : Instr) (p : SinkPort) (s : State) : (waitForSink i s p).lzw = s.lzw := rfl
@[simp] theorem waitForSink_frameMem (i : Instr) (p : SinkPort) (s : State) :
    (waitForSink i s p).frameMem = s.frameMem := rfl
@[simp] theorem waitForSink_sink (i : Instr) (p : SinkPort) (s : State) : (waitForSink i s p).sink = p := rfl
@[simp] theorem waitForSink_inputs (i : Instr) (p : SinkPort) (s : State) : (waitForSink i s p).inputs = s.inputs := rfl
@[simp] theorem waitForSink_readData (i : Instr) (p : SinkPort) (s : State) :
    (waitForSink i s p).readData = s.readData := rfl
@[simp] theorem waitForSink_maxPixels (i : Instr) (p : SinkPort) (s : State) :
    (waitForSink i s p).maxPixels = s.maxPixels := rfl
@[simp] theorem waitForSink_quantTable (i : Instr) (p : SinkPort) (s : State) :
    (waitForSink i s p).quantTable = s.quantTable := rfl

end Sys2Proof.Machine
end

