-- ==== Sys2Proof/Laws/Sink.lean ====
section
/-! SUPPORT. Everything an offered sequence of sink operations can do (20_memory R66, R67, R71), said once. -/

namespace Sys2Proof.Machine

/-- The records of operations all answered ok, newest first. -/
def okRecords (ops : List SinkOp) : List SinkRecord := (ops.map fun op => ⟨op, .ok⟩).reverse

@[simp] theorem okRecords_nil : okRecords [] = [] := rfl

theorem okRecords_cons (op : SinkOp) (ops : List SinkOp) : okRecords (op :: ops) = okRecords ops ++ [⟨op, .ok⟩] := by
  simp [okRecords]

@[simp] theorem okRecords_length (ops : List SinkOp) : (okRecords ops).length = ops.length := by simp [okRecords]

/-- Enough answers, all ok: every operation is accepted, in order, and the rest of the answers stays. -/
theorem sinkOffer_accepted (ops : List SinkOp) (p : SinkPort) (rest : List SinkAnswer)
    (h : p.answers = List.replicate ops.length .ok ++ rest) :
    sinkOffer ops p = ({ p with answers := rest, log := okRecords ops ++ p.log }, .accepted) := by
  induction ops generalizing p with
  | nil => simp_all [sinkOffer]; cases p; simp_all
  | cons op ops ih =>
    rw [List.length_cons, List.replicate_succ, List.cons_append] at h
    simp only [sinkOffer, h]
    rw [ih _ rfl]
    simp [okRecords_cons]

/-- A failing answer ends the offering at its operation; no later one is offered. -/
theorem sinkOffer_failed (pre : List SinkOp) (op : SinkOp) (post : List SinkOp) (p : SinkPort) (rest : List SinkAnswer)
    (h : p.answers = List.replicate pre.length .ok ++ .fail :: rest) :
    sinkOffer (pre ++ op :: post) p
      = ({ p with answers := rest, log := ⟨op, .fail⟩ :: okRecords pre ++ p.log }, .failed) := by
  induction pre generalizing p with
  | nil => simp_all [sinkOffer]
  | cons op' pre ih =>
    rw [List.length_cons, List.replicate_succ, List.cons_append] at h
    simp only [List.cons_append, sinkOffer, h]
    rw [ih _ rfl]
    simp [okRecords_cons]

/-- Too few answers, all ok: the operation after them waits. -/
theorem sinkOffer_unanswered (pre : List SinkOp) (op : SinkOp) (post : List SinkOp) (p : SinkPort)
    (h : p.answers = List.replicate pre.length .ok) :
    sinkOffer (pre ++ op :: post) p = ({ p with answers := [], log := okRecords pre ++ p.log }, .unanswered) := by
  induction pre generalizing p with
  | nil => simp_all [sinkOffer]; cases p; simp_all
  | cons op' pre ih =>
    rw [List.length_cons, List.replicate_succ] at h
    simp only [List.cons_append, sinkOffer, h]
    rw [ih _ rfl]
    simp [okRecords_cons]

/-- An offered sequence ends in one of three ways, and each says what was answered. -/
theorem sinkOffer_cases (ops : List SinkOp) (p : SinkPort) :
    (∃ rest, p.answers = List.replicate ops.length .ok ++ rest ∧
      sinkOffer ops p = ({ p with answers := rest, log := okRecords ops ++ p.log }, .accepted)) ∨
    (∃ pre op post rest, ops = pre ++ op :: post ∧ p.answers = List.replicate pre.length .ok ++ .fail :: rest ∧
      sinkOffer ops p = ({ p with answers := rest, log := ⟨op, .fail⟩ :: okRecords pre ++ p.log }, .failed)) ∨
    (∃ pre op post, ops = pre ++ op :: post ∧ p.answers = List.replicate pre.length .ok ∧
      sinkOffer ops p = ({ p with answers := [], log := okRecords pre ++ p.log }, .unanswered)) := by
  suffices H : (∃ rest, p.answers = List.replicate ops.length .ok ++ rest) ∨
      (∃ pre op post rest, ops = pre ++ op :: post ∧ p.answers = List.replicate pre.length .ok ++ .fail :: rest) ∨
      (∃ pre op post, ops = pre ++ op :: post ∧ p.answers = List.replicate pre.length .ok) by
    rcases H with ⟨rest, h⟩ | ⟨pre, op, post, rest, rfl, h⟩ | ⟨pre, op, post, rfl, h⟩
    · exact .inl ⟨rest, h, sinkOffer_accepted ops p rest h⟩
    · exact .inr (.inl ⟨pre, op, post, rest, rfl, h, sinkOffer_failed pre op post p rest h⟩)
    · exact .inr (.inr ⟨pre, op, post, rfl, h, sinkOffer_unanswered pre op post p h⟩)
  generalize p.answers = as
  induction ops generalizing as with
  | nil => exact .inl ⟨as, by simp⟩
  | cons op ops ih =>
    match as with
    | [] => exact .inr (.inr ⟨[], op, ops, by simp, by simp⟩)
    | .fail :: as => exact .inr (.inl ⟨[], op, ops, as, by simp, by simp⟩)
    | .ok :: as =>
      rcases ih as with ⟨rest, h⟩ | ⟨pre, op', post, rest, h1, h2⟩ | ⟨pre, op', post, h1, h2⟩
      · exact .inl ⟨rest, by simp [h, List.replicate_succ]⟩
      · exact .inr (.inl ⟨op :: pre, op', post, rest, by simp [h1], by simp [h2, List.replicate_succ]⟩)
      · exact .inr (.inr ⟨op :: pre, op', post, by simp [h1], by simp [h2, List.replicate_succ]⟩)

/-- Going on after operations that were all accepted. -/
theorem offerThen_accepted (i : Instr) (s0 s : State) (ops : List SinkOp) (onOk onFail : State → State)
    (rest : List SinkAnswer) (h : s.sink.answers = List.replicate ops.length .ok ++ rest) :
    offerThen i s0 s ops onOk onFail
      = onOk { s with sink := { s.sink with answers := rest, log := okRecords ops ++ s.sink.log } } := by
  simp [offerThen, sinkOffer_accepted ops s.sink rest h]

/-- Going on after an operation that failed. -/
theorem offerThen_failed (i : Instr) (s0 s : State) (pre : List SinkOp) (op : SinkOp) (post : List SinkOp)
    (onOk onFail : State → State) (rest : List SinkAnswer)
    (h : s.sink.answers = List.replicate pre.length .ok ++ .fail :: rest) :
    offerThen i s0 s (pre ++ op :: post) onOk onFail
      = onFail { s with sink := { s.sink with answers := rest, log := ⟨op, .fail⟩ :: okRecords pre ++ s.sink.log } } := by
  simp [offerThen, sinkOffer_failed pre op post s.sink rest h]

/-- Waiting at an operation that has no answer. -/
theorem offerThen_unanswered (i : Instr) (s0 s : State) (pre : List SinkOp) (op : SinkOp) (post : List SinkOp)
    (onOk onFail : State → State) (h : s.sink.answers = List.replicate pre.length .ok) :
    offerThen i s0 s (pre ++ op :: post) onOk onFail
      = waitForSink i s0 { s.sink with answers := [], log := okRecords pre ++ s.sink.log } := by
  simp [offerThen, sinkOffer_unanswered pre op post s.sink h]

/-! ## The output stream -/

@[simp] theorem streamOf_nil : streamOf [] = [] := rfl

/-- Newer records add their bytes at the end of the stream. -/
theorem streamOf_append (new old : List SinkRecord) : streamOf (new ++ old) = streamOf old ++ streamOf new := by
  simp [streamOf]

/-- Bytes written and accepted are the bytes the stream gains. -/
@[simp] theorem streamOf_okRecords_sinkWrites (bytes : List Byte) : streamOf (okRecords (sinkWrites bytes)) = bytes := by
  simp only [streamOf, okRecords, sinkWrites, List.reverse_reverse, List.map_map, List.filterMap_map]
  induction bytes with
  | nil => rfl
  | cons b bytes ih => simpa [acceptedByte] using ih

/-- A failed operation adds nothing to the stream. -/
@[simp] theorem streamOf_failed (op : SinkOp) : streamOf [⟨op, .fail⟩] = [] := by
  cases op <;> rfl

@[simp] theorem sinkWrites_length (bytes : List Byte) : (sinkWrites bytes).length = bytes.length := by simp [sinkWrites]

end Sys2Proof.Machine
end

