-- ==== Sys2Proof/Laws/Exec.lean ====
section
/-! SUPPORT. The arms of exec and the cases of step, one equation each, so that later proofs cite them and do not unfold. -/

namespace Sys2Proof.Machine

@[simp] theorem exec_start (own : Bool) (s : State) : exec (.start own) s = execStart own s := rfl
@[simp] theorem exec_addFrame (s : State) : exec .addFrame s = execAddFrame s := rfl
@[simp] theorem exec_finish (s : State) : exec .finish s = execFinish s := rfl
@[simp] theorem exec_setDelay (s : State) : exec .setDelay s = execSetDelay s := rfl
@[simp] theorem exec_setRepeat (s : State) : exec .setRepeat s = execSetRepeat s := rfl
@[simp] theorem exec_setDispose (s : State) : exec .setDispose s = execSetDispose s := rfl
@[simp] theorem exec_setTransparent (s : State) : exec .setTransparent s = execSetTransparent s := rfl
@[simp] theorem exec_clearTransparent (s : State) : exec .clearTransparent s = execClearTransparent s := rfl
@[simp] theorem exec_setSize (s : State) : exec .setSize s = execSetSize s := rfl
@[simp] theorem exec_setQuality (s : State) : exec .setQuality s = execSetQuality s := rfl

/-- A step with an input takes it from the queue and lets it take effect. -/
theorem step_of_input {s : State} {input : HostInput} {rest : List HostInput} (h : s.inputs = input :: rest) :
    step s = takeInput input { s with inputs := rest } := by
  simp [step, h]

/-- A step without an input is the idle step. -/
theorem step_of_no_input {s : State} (h : s.inputs = []) : step s = idleStep s := by
  simp [step, h]

/-- The next step after withFetchWord takes the CMD write of that word, on the state with no command running. -/
theorem step_withFetchWord (s : State) (nbits w : Nat) :
    step (s.withFetchWord nbits w) = hostWrite 4 0x00 (BitVec.ofNat 32 (w % 2 ^ nbits)) { s with running := none } := rfl

/-- The session runs exactly in the two started states. -/
theorem started_iff (s : State) : s.started = true ↔ s.lifecycle = .startedFirst ∨ s.lifecycle = .startedSubseq := by
  unfold State.started
  cases s.lifecycle <;> simp

theorem not_started_iff (s : State) : s.started = false ↔ s.lifecycle = .unstarted ∨ s.lifecycle = .finished := by
  unfold State.started
  cases s.lifecycle <;> simp

end Sys2Proof.Machine
end

