-- ==== Sys2Proof/Laws/Frame.lean ====
section
/-! SUPPORT. What preparing a frame can change (43_container R182, steps 1 to 3), when ADD_FRAME is refused, and how a command
comes to wait, each said once. -/

namespace Sys2Proof.Machine

/-! ## Steps 1 to 3 of ADD_FRAME -/

@[simp] theorem adoptSize_sizeSet (fw fh : Half) (s : State) : (adoptSize fw fh s).sizeSet = true := by
  unfold adoptSize; split <;> simp_all

@[simp] theorem adoptSize_width (fw fh : Half) (s : State) :
    (adoptSize fw fh s).width = if s.sizeSet then s.width else fw := by
  unfold adoptSize; split <;> rfl

@[simp] theorem adoptSize_height (fw fh : Half) (s : State) :
    (adoptSize fw fh s).height = if s.sizeSet then s.height else fh := by
  unfold adoptSize; split <;> rfl

/-- Adopting the size changes the size registers only. -/
theorem adoptSize_eq (fw fh : Half) (s : State) :
    adoptSize fw fh s
      = { s with width := (adoptSize fw fh s).width, height := (adoptSize fw fh s).height, sizeSet := true } := by
  unfold adoptSize; split
  · cases s; simp_all
  · rfl

/-- Indexing a frame changes the PaletteIndexer's memories only. -/
theorem indexFrame_eq (fw fh : Nat) (s : State) : indexFrame fw fh s = { s with frame := (indexFrame fw fh s).frame } := rfl

/-- Finding the transparent index changes TRANS_INDEX only. -/
theorem findTransparent_eq (s : State) : findTransparent s = { s with transIndex := (findTransparent s).transIndex } := by
  unfold findTransparent; split <;> rfl

/-- Everything that steps 1 to 3 can change. -/
theorem prepareFrame_eq (s : State) :
    prepareFrame s = { s with
      width := (prepareFrame s).width, height := (prepareFrame s).height, sizeSet := true
      transIndex := (prepareFrame s).transIndex, frame := (prepareFrame s).frame } := by
  unfold prepareFrame findTransparent adoptSize indexFrame
  split <;> split <;> simp_all

@[simp] theorem prepareFrame_width (s : State) : (prepareFrame s).width = if s.sizeSet then s.width else opFw s := by
  unfold prepareFrame; rw [findTransparent_eq]; exact adoptSize_width ..

@[simp] theorem prepareFrame_height (s : State) : (prepareFrame s).height = if s.sizeSet then s.height else opFh s := by
  unfold prepareFrame; rw [findTransparent_eq]; exact adoptSize_height ..

/-- The PaletteIndexer's memories after steps 1 to 3 are those that indexing leaves. -/
theorem prepareFrame_frame (s : State) :
    (prepareFrame s).frame
      = (indexFrame (opFw s).toNat (opFh s).toNat (adoptSize (opFw s) (opFh s) s)).frame := by
  unfold prepareFrame; rw [findTransparent_eq]

/-- TRANS_INDEX after steps 1 to 3: found on the frame's own palette and indices when VALID = 1, else kept. -/
theorem prepareFrame_transIndex (s : State) :
    (prepareFrame s).transIndex
      = if s.transp.valid then
          BitVec.ofNat 8 (nearestUsed s.transp.colour (prepareFrame s).frame.used
            ((prepareFrame s).frame.pal.take (prepareFrame s).frame.palLen))
        else s.transIndex := by
  rw [prepareFrame_frame]
  unfold prepareFrame
  rw [findTransparent, indexFrame_eq, adoptSize_eq]
  split <;> rfl

@[simp] theorem prepareFrame_sizeSet (s : State) : (prepareFrame s).sizeSet = true := by rw [prepareFrame_eq]
@[simp] theorem prepareFrame_arg0 (s : State) : (prepareFrame s).arg0 = s.arg0 := by rw [prepareFrame_eq]
@[simp] theorem prepareFrame_arg1 (s : State) : (prepareFrame s).arg1 = s.arg1 := by rw [prepareFrame_eq]
@[simp] theorem prepareFrame_lifecycle (s : State) : (prepareFrame s).lifecycle = s.lifecycle := by rw [prepareFrame_eq]
@[simp] theorem prepareFrame_result (s : State) : (prepareFrame s).result = s.result := by rw [prepareFrame_eq]
@[simp] theorem prepareFrame_sinkErr (s : State) : (prepareFrame s).sinkErr = s.sinkErr := by rw [prepareFrame_eq]
@[simp] theorem prepareFrame_overrun (s : State) : (prepareFrame s).overrun = s.overrun := by rw [prepareFrame_eq]
@[simp] theorem prepareFrame_running (s : State) : (prepareFrame s).running = s.running := by rw [prepareFrame_eq]
@[simp] theorem prepareFrame_delayCs (s : State) : (prepareFrame s).delayCs = s.delayCs := by rw [prepareFrame_eq]
@[simp] theorem prepareFrame_repeatCount (s : State) : (prepareFrame s).repeatCount = s.repeatCount := by
  rw [prepareFrame_eq]
@[simp] theorem prepareFrame_dispose (s : State) : (prepareFrame s).dispose = s.dispose := by rw [prepareFrame_eq]
@[simp] theorem prepareFrame_transp (s : State) : (prepareFrame s).transp = s.transp := by rw [prepareFrame_eq]
@[simp] theorem prepareFrame_quality (s : State) : (prepareFrame s).quality = s.quality := by rw [prepareFrame_eq]
@[simp] theorem prepareFrame_ownSink (s : State) : (prepareFrame s).ownSink = s.ownSink := by rw [prepareFrame_eq]
@[simp] theorem prepareFrame_lzw (s : State) : (prepareFrame s).lzw = s.lzw := by rw [prepareFrame_eq]
@[simp] theorem prepareFrame_frameMem (s : State) : (prepareFrame s).frameMem = s.frameMem := by rw [prepareFrame_eq]
@[simp] theorem prepareFrame_sink (s : State) : (prepareFrame s).sink = s.sink := by rw [prepareFrame_eq]
@[simp] theorem prepareFrame_inputs (s : State) : (prepareFrame s).inputs = s.inputs := by rw [prepareFrame_eq]
@[simp] theorem prepareFrame_readData (s : State) : (prepareFrame s).readData = s.readData := by rw [prepareFrame_eq]
@[simp] theorem prepareFrame_maxPixels (s : State) : (prepareFrame s).maxPixels = s.maxPixels := by rw [prepareFrame_eq]
@[simp] theorem prepareFrame_quantTable (s : State) : (prepareFrame s).quantTable = s.quantTable := by
  rw [prepareFrame_eq]

/-! ## The operands of ADD_FRAME as numbers (30_encoding R93) -/

theorem opFw_toNat (s : State) : (opFw s).toNat = s.arg0.toNat % 65536 := by
  simp [opFw, lowHalf]

theorem opFh_toNat (s : State) : (opFh s).toNat = s.arg0.toNat / 65536 := by
  have := s.arg0.isLt
  simp only [opFh, highHalf, BitVec.extractLsb'_toNat, Nat.shiftRight_eq_div_pow]
  omega

theorem opPresent_eq (s : State) : opPresent s = decide (s.arg1.toNat % 2 = 1) := by
  simp [opPresent, BitVec.getLsbD, Nat.testBit_zero]

/-! ## How a command comes to wait -/

/-- A sequence of operations whose continuations both complete leaves a command running only by waiting for an answer. -/
theorem offerThen_waits {i : Instr} {s0 s t : State} {ops : List SinkOp} {f g : State → State}
    (h : offerThen i s0 s ops f g = t) (hf : ∀ x, (f x).running = none) (hg : ∀ x, (g x).running = none)
    (ht : t.running ≠ none) :
    ∃ pre op post, ops = pre ++ op :: post ∧ s.sink.answers = List.replicate pre.length .ok ∧
      t = waitForSink i s0 { s.sink with answers := [], log := okRecords pre ++ s.sink.log } := by
  rcases sinkOffer_cases ops s.sink with ⟨rest, h1, h2⟩ | ⟨pre, op, post, rest, h0, h1, h2⟩ | ⟨pre, op, post, h0, h1, h2⟩
  · simp only [offerThen, h2] at h; subst h; exact absurd (hf _) ht
  · simp only [offerThen, h2] at h; subst h; exact absurd (hg _) ht
  · simp only [offerThen, h2] at h; exact ⟨pre, op, post, h0, h1, h.symm⟩

/-! ## When ADD_FRAME is refused -/

/-- The check of ADD_FRAME is the disjunction of 60 R241's causes. -/
theorem addFrameRefused_iff (s : State) : addFrameRefused s = true ↔ precondCause .addFrame s := by
  have e0 : (opFw s = 0#16) ↔ s.arg0.toNat % 65536 = 0 := by rw [← BitVec.toNat_inj, opFw_toNat]; rfl
  have e1 : (opFh s = 0#16) ↔ s.arg0.toNat / 65536 = 0 := by rw [← BitVec.toNat_inj, opFh_toNat]; rfl
  have e2 : (opPresent s = false) ↔ s.arg1.toNat % 2 = 0 := by rw [opPresent_eq]; simp
  simp only [addFrameRefused, precondCause, sessionPixels, Bool.or_eq_true, Bool.not_eq_true', beq_iff_eq, decide_eq_true_eq,
    not_started_iff, e0, e1, e2, opFw_toNat, opFh_toNat, or_assoc]
  cases s.sizeSet <;> simp

end Sys2Proof.Machine
end

