-- ==== Sys2Proof/Laws/Lzw.lean ====
section
/-! SUPPORT. What each subroutine of the LZW unit can change, said once (42_lzw R149, R150, R152 to R157). -/

namespace Sys2Proof.Machine

/-! ## Sub-blocks -/

/-- A byte fills the sub-block further, or completes it: then the full sub-block is emitted and a new one begins (R156, R157). -/
theorem charOut_cases (b : Byte) (u : LzwUnit) :
    (u.sbBuf.length + 1 < 254 ∧ charOut b u = ({ u with sbBuf := u.sbBuf ++ [b] }, [])) ∨
    (254 ≤ u.sbBuf.length + 1 ∧
      charOut b u = ({ u with sbBuf := [] }, BitVec.ofNat 8 (u.sbBuf.length + 1) :: (u.sbBuf ++ [b]))) := by
  rcases Nat.lt_or_ge (u.sbBuf.length + 1) 254 with h | h
  · left; refine ⟨h, ?_⟩
    simp [charOut, Config.subblockMax, LzwUnit.sbCount, Nat.not_le.mpr h]
  · right; refine ⟨h, ?_⟩
    simp [charOut, flushChar, Config.subblockMax, LzwUnit.sbCount, h]

/-- Adding a byte changes the sub-block buffer only. -/
theorem charOut_eq (b : Byte) (u : LzwUnit) : (charOut b u).1 = { u with sbBuf := (charOut b u).1.sbBuf } := by
  rcases charOut_cases b u with ⟨-, h⟩ | ⟨-, h⟩ <;> rw [h]

/-- The sub-block buffer stays below 254 bytes between bytes. -/
theorem charOut_short (b : Byte) (u : LzwUnit) : (charOut b u).1.sbBuf.length < 254 := by
  rcases charOut_cases b u with ⟨h0, h⟩ | ⟨-, h⟩ <;> rw [h]
  · simpa using h0
  · simp

/-- Flushing changes the sub-block buffer only, and empties it. -/
theorem flushChar_eq (u : LzwUnit) : (flushChar u).1 = { u with sbBuf := [] } := by
  unfold flushChar LzwUnit.sbCount
  split
  · rfl
  · cases u; simp_all

/-! ## Codes -/

/-- Draining shifts the accumulator, lowers its count, and fills the sub-block buffer; it changes nothing else. -/
theorem drainBytes_eq (k : Nat) (u : LzwUnit) :
    (drainBytes k u).1
      = { u with acc := u.acc >>> (8 * k), accBits := u.accBits - 8 * k, sbBuf := (drainBytes k u).1.sbBuf } := by
  induction k generalizing u with
  | zero => simp [drainBytes]
  | succ k ih =>
    rw [drainBytes]
    dsimp only
    rw [ih, charOut_eq]
    simp only [← Nat.shiftRight_add, LzwUnit.mk.injEq, true_and, and_true]
    constructor
    · congr 1; omega
    · omega

/-- What updating the code width changes: the width, its largest code and the reset flag. -/
theorem updateWidth_eq (u : LzwUnit) :
    updateWidth u
      = { u with nbits := (updateWidth u).nbits, maxcode := (updateWidth u).maxcode, clearFlg := false } ∨
    (updateWidth u = u) := by
  unfold updateWidth
  split
  · split
    · exact .inl rfl
    · rename_i h; left; cases u; simp_all
  · exact .inr rfl

/-- The width stays, grows by one, or returns to INIT_BITS when the reset flag is set (R154). -/
theorem updateWidth_nbits (u : LzwUnit) :
    (updateWidth u).nbits = if u.clearFlg then u.initBits else if u.maxcode < u.free then u.nbits + 1 else u.nbits := by
  unfold updateWidth
  cases u.clearFlg <;> by_cases h : u.maxcode < u.free <;> simp [h]

/-- Two units with the same dictionary, codes' layout, current string and pixel counters. -/
structure LzwUnit.SameCodes (t u : LzwUnit) : Prop where
  initBits : t.initBits = u.initBits
  clear : t.clear = u.clear
  eoi : t.eoi = u.eoi
  free : t.free = u.free
  ent : t.ent = u.ent
  htab : t.htab = u.htab
  codetab : t.codetab = u.codetab
  n : t.n = u.n
  curPix : t.curPix = u.curPix

theorem LzwUnit.SameCodes.trans {t u v : LzwUnit} (h : t.SameCodes u) (h' : u.SameCodes v) : t.SameCodes v :=
  ⟨h.1.trans h'.1, h.2.trans h'.2, h.3.trans h'.3, h.4.trans h'.4, h.5.trans h'.5, h.6.trans h'.6, h.7.trans h'.7,
    h.8.trans h'.8, h.9.trans h'.9⟩

theorem packCode_sameCodes (code : Nat) (u : LzwUnit) : (packCode code u).SameCodes u := by constructor <;> rfl

theorem drainBytes_sameCodes (k : Nat) (u : LzwUnit) : (drainBytes k u).1.SameCodes u := by
  rw [drainBytes_eq]; constructor <;> rfl

theorem updateWidth_sameCodes (u : LzwUnit) : (updateWidth u).SameCodes u := by
  rcases updateWidth_eq u with h | h <;> rw [h] <;> constructor <;> rfl

theorem finalFlush_sameCodes (u : LzwUnit) : (finalFlush u).1.SameCodes u := by
  refine LzwUnit.SameCodes.trans (u := (drainBytes ((u.accBits + 7) / 8) u).1) ?_ (drainBytes_sameCodes _ u)
  rw [finalFlush]
  dsimp only
  rw [flushChar_eq]
  constructor <;> rfl

/-- Emitting a code leaves the dictionary, the codes' layout, the current string and the pixel counters alone. -/
theorem outputCode_sameCodes (code : Nat) (u : LzwUnit) : (outputCode code u).1.SameCodes u := by
  have h : (updateWidth (drainWhole (packCode code u)).1).SameCodes u :=
    (updateWidth_sameCodes _).trans ((drainBytes_sameCodes _ _).trans (packCode_sameCodes code u))
  unfold outputCode
  dsimp only
  split
  · exact (finalFlush_sameCodes _).trans h
  · exact h

/-- Inserting a pair keeps both tables in their canonical form. -/
theorem insertPair_wf (i key : Nat) (u : LzwUnit) (h : cellsWf u.htab) (h' : cellsWf u.codetab) :
    cellsWf (insertPair i key u).htab ∧ cellsWf (insertPair i key u).codetab :=
  ⟨cellsPut_wf i key h, cellsPut_wf i u.free h'⟩

/-- The slot a pair is inserted at holds its key and its code (R149). -/
theorem insertPair_get (i key : Nat) (u : LzwUnit) :
    cellsGet (insertPair i key u).htab i = some key ∧ codeAt (insertPair i key u) i = u.free := by
  simp [insertPair, codeAt]

/-! ## The probe (R146, R147) -/

/-- A displacement of 1 to HSIZE stays inside the table. -/
theorem nextSlot_lt {i disp : Nat} (hi : i < 5003) (h1 : 1 ≤ disp) (h2 : disp ≤ 5003) : nextSlot i disp < 5003 := by
  unfold nextSlot Config.hsize; split <;> omega

/-- The primary slot of a 12-bit code and a pixel is inside the table. -/
theorem primarySlot_lt {ent c : Nat} (he : ent < 4096) (hc : c < 256) : primarySlot ent c < 4096 := by
  unfold primarySlot
  have h : c <<< 4 < 2 ^ 12 := by rw [Nat.shiftLeft_eq]; omega
  exact Nat.xor_lt_two_pow h he

end Sys2Proof.Machine
end

