-- ==== Sys2Proof/Laws/PerInstr.lean ====
section
/-! SUPPORT. Per-instruction families of LAWS.json. -/

namespace Sys2Proof.Laws.EncodedLegal

/-- The word of a command is a legal command word (30_encoding R90, R94). -/
def Statement (i : Instr) : Prop := wordLegal (encode i) = true

theorem start (own : Bool) : Statement (.start own) := by cases own <;> rfl
theorem addFrame : Statement .addFrame := rfl
theorem finish : Statement .finish := rfl
theorem setDelay : Statement .setDelay := rfl
theorem setRepeat : Statement .setRepeat := rfl
theorem setDispose : Statement .setDispose := rfl
theorem setTransparent : Statement .setTransparent := rfl
theorem clearTransparent : Statement .clearTransparent := rfl
theorem setSize : Statement .setSize := rfl
theorem setQuality : Statement .setQuality := rfl

end Sys2Proof.Laws.EncodedLegal
end

