-- ==== Sys2Proof/Laws/Runs.lean ====
section
/-! SUPPORT. What issuing a command of a run changes, field by field, and how runs compose. -/

namespace Sys2Proof.Machine

@[simp] theorem withCall_arg0 (c : CommandCall) (s : State) : (withCall c s).arg0 = c.arg0 := rfl
@[simp] theorem withCall_arg1 (c : CommandCall) (s : State) : (withCall c s).arg1 = c.arg1 := rfl
@[simp] theorem withCall_frameMem (c : CommandCall) (s : State) : (withCall c s).frameMem = c.frameMem := rfl
@[simp] theorem withCall_sink_present (c : CommandCall) (s : State) : (withCall c s).sink.present = s.sink.present := rfl
@[simp] theorem withCall_sink_log (c : CommandCall) (s : State) : (withCall c s).sink.log = s.sink.log := rfl
@[simp] theorem withCall_stream (c : CommandCall) (s : State) : (withCall c s).stream = s.stream := rfl
@[simp] theorem withCall_result (c : CommandCall) (s : State) : (withCall c s).result = s.result := rfl
@[simp] theorem withCall_lifecycle (c : CommandCall) (s : State) : (withCall c s).lifecycle = s.lifecycle := rfl
@[simp] theorem withCall_sinkErr (c : CommandCall) (s : State) : (withCall c s).sinkErr = s.sinkErr := rfl
@[simp] theorem withCall_overrun (c : CommandCall) (s : State) : (withCall c s).overrun = s.overrun := rfl
@[simp] theorem withCall_running (c : CommandCall) (s : State) : (withCall c s).running = s.running := rfl
@[simp] theorem withCall_delayCs (c : CommandCall) (s : State) : (withCall c s).delayCs = s.delayCs := rfl
@[simp] theorem withCall_repeatCount (c : CommandCall) (s : State) : (withCall c s).repeatCount = s.repeatCount := rfl
@[simp] theorem withCall_dispose (c : CommandCall) (s : State) : (withCall c s).dispose = s.dispose := rfl
@[simp] theorem withCall_transp (c : CommandCall) (s : State) : (withCall c s).transp = s.transp := rfl
@[simp] theorem withCall_width (c : CommandCall) (s : State) : (withCall c s).width = s.width := rfl
@[simp] theorem withCall_height (c : CommandCall) (s : State) : (withCall c s).height = s.height := rfl
@[simp] theorem withCall_quality (c : CommandCall) (s : State) : (withCall c s).quality = s.quality := rfl
@[simp] theorem withCall_transIndex (c : CommandCall) (s : State) : (withCall c s).transIndex = s.transIndex := rfl
@[simp] theorem withCall_sizeSet (c : CommandCall) (s : State) : (withCall c s).sizeSet = s.sizeSet := rfl
@[simp] theorem withCall_ownSink (c : CommandCall) (s : State) : (withCall c s).ownSink = s.ownSink := rfl
@[simp] theorem withCall_frame (c : CommandCall) (s : State) : (withCall c s).frame = s.frame := rfl
@[simp] theorem withCall_lzw (c : CommandCall) (s : State) : (withCall c s).lzw = s.lzw := rfl
@[simp] theorem withCall_inputs (c : CommandCall) (s : State) : (withCall c s).inputs = s.inputs := rfl
@[simp] theorem withCall_readData (c : CommandCall) (s : State) : (withCall c s).readData = s.readData := rfl
@[simp] theorem withCall_maxPixels (c : CommandCall) (s : State) : (withCall c s).maxPixels = s.maxPixels := rfl
@[simp] theorem withCall_quantTable (c : CommandCall) (s : State) : (withCall c s).quantTable = s.quantTable := rfl

/-- A run of one command after another: the first completed with OK, and the rest ran from there. -/
theorem runAllOk_cons {c : CommandCall} {calls : List CommandCall} {s t : State} :
    runAllOk (c :: calls) s = some t ↔
      ∃ u, exec c.instr (withCall c s) = .next u ∧ u.running = none ∧ u.result = .ok ∧ runAllOk calls u = some t := by
  rw [runAllOk]
  cases exec c.instr (withCall c s) with
  | next u =>
    by_cases h : u.running = none ∧ u.result = .ok
    · simp [h.1, h.2]
    · constructor
      · intro h'; simp [h] at h'
      · rintro ⟨v, hv, h1, h2, -⟩; cases hv; exact absurd ⟨h1, h2⟩ h
  | fault f => simp
  | refused r => simp

/-- A run in two parts. -/
theorem runAllOk_append (first later : List CommandCall) (s : State) :
    runAllOk (first ++ later) s = (runAllOk first s).bind (runAllOk later) := by
  induction first generalizing s with
  | nil => rfl
  | cons c first ih =>
    simp only [List.cons_append, runAllOk]
    cases exec c.instr (withCall c s) with
    | next u => by_cases h : u.running = none ∧ u.result = .ok <;> simp [h, ih]
    | fault f => rfl
    | refused r => rfl

end Sys2Proof.Machine
end

