-- ==== Sys2Proof/Tests/Slice0.lean ====
section
/-! SUPPORT. The model's own tests. Expected values come from the rules' encodings and from spec/95_test_vectors.md (the id
stands in the docstring). The second half shows, for every statement with hypotheses, a state and operands that meet them. -/

namespace Sys2Proof.Tests

open Sys2Proof Sys2Proof.Machine

/-! ## Words (30_encoding R90, R91; V-ENC) -/

theorem test_decode_start : decodeTableWord 32 0b00000000000000000000000_0_00000001 = some (.start false) := by decide
theorem test_decode_start_own : decodeTableWord 32 0b00000000000000000000000_1_00000001 = some (.start true) := by decide
theorem test_decode_addFrame : decodeTableWord 32 0b00000000000000000000000_0_00000010 = some .addFrame := by decide
theorem test_decode_finish : decodeTableWord 32 0b00000000000000000000000_0_00000011 = some .finish := by decide
theorem test_decode_setDelay : decodeTableWord 32 0b00000000000000000000000_0_00010000 = some .setDelay := by decide
theorem test_decode_setRepeat : decodeTableWord 32 0b00000000000000000000000_0_00010001 = some .setRepeat := by decide
theorem test_decode_setDispose : decodeTableWord 32 0b00000000000000000000000_0_00010010 = some .setDispose := by decide
theorem test_decode_setTransparent : decodeTableWord 32 0b00000000000000000000000_0_00010011 = some .setTransparent := by
  decide
theorem test_decode_clearTransparent : decodeTableWord 32 0b00000000000000000000000_0_00010100 = some .clearTransparent := by
  decide
theorem test_decode_setSize : decodeTableWord 32 0b00000000000000000000000_0_00010101 = some .setSize := by decide
theorem test_decode_setQuality : decodeTableWord 32 0b00000000000000000000000_0_00010110 = some .setQuality := by decide

/-- The encoder writes the words of 30_encoding R91. -/
theorem test_encode_words :
    encode (.start false) = 0x00000001#32 ∧ encode (.start true) = 0x00000101#32 ∧ encode .addFrame = 0x00000002#32 ∧
    encode .finish = 0x00000003#32 ∧ encode .setDelay = 0x00000010#32 ∧ encode .setRepeat = 0x00000011#32 ∧
    encode .setDispose = 0x00000012#32 ∧ encode .setTransparent = 0x00000013#32 ∧
    encode .clearTransparent = 0x00000014#32 ∧ encode .setSize = 0x00000015#32 ∧ encode .setQuality = 0x00000016#32 := by
  decide

/-! ## Well-formedness smoke: one ill-formed word for each check of R94 -/

/-- V-ENC: opcode 0x04 is in no row of R91. -/
theorem test_wf_opcode : opcodeKnown 0x00000004#32 = false ∧ wordLegal 0x00000004#32 = false := by decide
/-- V-ENC: bit 9 is reserved. -/
theorem test_wf_reserved : reservedBitsZero 0x00000201#32 = false ∧ wordLegal 0x00000201#32 = false := by decide
/-- V-EXC-1: OWN with ADD_FRAME. -/
theorem test_wf_own : ownBitAllowed 0x00000102#32 = false ∧ wordLegal 0x00000102#32 = false := by decide
/-- A legal word passes each check. -/
theorem test_wf_legal : wordLegal 0x00000101#32 = true ∧ wordLegal 0x00000016#32 = true := by decide
/-- The rejected words carry the name of their cause. -/
theorem test_decode_errors :
    (match decode 0x00000004#32 with | .error .reservedOpcode => true | _ => false) = true ∧
    (match decode 0x80000010#32 with | .error .reservedBits => true | _ => false) = true ∧
    (match decode 0x00000102#32 with | .error .ownNotAllowed => true | _ => false) = true := by decide

/-! ## Helpers: small states -/

/-- A red 2 × 2 frame in frame memory (95 part 3, P1). -/
def redMem : Memory :=
  [(0, 0xFF#8), (1, 0#8), (2, 0#8), (3, 0xFF#8), (4, 0#8), (5, 0#8), (6, 0xFF#8), (7, 0#8), (8, 0#8), (9, 0xFF#8), (10, 0#8),
    (11, 0#8)]

/-- The red pixel. -/
def red : Rgb := ⟨0xFF#8, 0#8, 0#8⟩

/-- A machine of 16 pixels, its sink present with the given answers, the quantizer's answer for the red 2 × 2 frame given. -/
def machine (answers : List SinkAnswer) : State :=
  { State.reset with
    maxPixels := 16
    frameMem := redMem
    sink := { present := true, answers := answers, log := [] }
    quantTable :=
      [({ pixels := [red, red, red, red], width := 2#16, height := 2#16, quality := 10#32 },
        { first := red, rest := [], known := [(red, 0#8)], other := 0#8 })] }

/-- `n` answers ok. -/
def oks (n : Nat) : List SinkAnswer := List.replicate n .ok

/-- A session that has written its signature. -/
def session (answers : List SinkAnswer) : State := { machine answers with lifecycle := .startedFirst }

/-- The session with the arguments of a 2 × 2 ADD_FRAME. -/
def sessionWithFrame (answers : List SinkAnswer) : State :=
  { session answers with arg0 := 0x00020002#32, arg1 := 1#32 }

/-- An ADD_FRAME that waits for its first answer. -/
def waitingFrame : Running :=
  { instr := .addFrame, arg0 := 0x00020002#32, arg1 := 1#32, present := true, answered := 0, dropped := false }

/-- The session while that ADD_FRAME waits. -/
def waiting : State := { sessionWithFrame [] with running := some waitingFrame }

/-- The machine with one input. -/
def withInput (input : HostInput) : State := { machine [] with inputs := [input] }

/-- Whether an outcome is a next state with a property. -/
def nextHas (p : State → Bool) : Host.Outcome State Fault Refusal → Bool
  | .next t => p t
  | .fault _ => false
  | .refused _ => false

theorem nextHas_exists {p : State → Bool} {o : Host.Outcome State Fault Refusal} (h : nextHas p o = true) :
    ∃ t, o = .next t ∧ p t = true := by
  cases o with
  | next t => exact ⟨t, rfl, h⟩
  | fault f => cases h
  | refused r => cases h

/-- The command word `w` runs in `s` as the next step. -/
def issue (w : Nat) (s : State) : Host.Outcome State Fault Refusal := step (s.withFetchWord 32 w)

/-! ## One step each (V-CFG, V-CON, V-EXC) -/

/-- V-CON-13 and V-CON-14. -/
theorem test_start_refused_and_failed :
    nextHas (fun t => t.result = .precond ∧ t.lifecycle = .unstarted ∧ t.stream = [])
      (issue 0x001 { machine [] with sink := { present := false, answers := [], log := [] } }) = true ∧
    nextHas (fun t => statusWord t = 0x00000120#32 ∧ t.ownSink = false ∧ t.stream = []) (issue 0x101 (machine [.fail]))
      = true := by decide +kernel

/-- START on an accepting sink, and V-CON-15. -/
theorem test_start :
    nextHas (fun t => statusWord t = 0x00000001#32 ∧ t.stream = [0x47#8, 0x49#8, 0x46#8, 0x38#8, 0x39#8, 0x61#8])
      (issue 0x001 (machine (oks 6))) = true ∧
    nextHas (fun t => statusWord t = 0x00000120#32 ∧ t.stream = [0x47#8, 0x49#8]) (issue 0x001 (machine [.ok, .ok, .fail]))
      = true := by decide +kernel

/-- P1's frame with DELAY 10: the bytes from the control block to the end of the frame, and the size of the whole. -/
theorem test_addFrame :
    nextHas (fun t => statusWord t = 0x00000002#32 ∧ sizeWord t = 0x00020002#32 ∧ t.stream.length = 802 ∧
        t.stream.take 10 = [0x02#8, 0x00#8, 0x02#8, 0x00#8, 0xF7#8, 0x00#8, 0x00#8, 0xFF#8, 0x00#8, 0x00#8] ∧
        t.stream.drop 775 =
          [0x21#8, 0xF9#8, 0x04#8, 0x00#8, 0x0A#8, 0x00#8, 0x00#8, 0x00#8, 0x2C#8, 0x00#8, 0x00#8, 0x00#8, 0x00#8, 0x02#8,
            0x00#8, 0x02#8, 0x00#8, 0x00#8, 0x08#8, 0x06#8, 0x00#8, 0x01#8, 0x08#8, 0x04#8, 0x10#8, 0x10#8, 0x00#8])
      (issue 0x002 { sessionWithFrame (oks 802) with delayCs := 10#16 }) = true := by decide +kernel

/-- The quantizer's answer for a frame of two greys in their order (95 section 0). -/
def greysAnswer (a b : Byte) : QuantCall × Quantization :=
  ({ pixels := [⟨a, a, a⟩, ⟨b, b, b⟩], width := 2#16, height := 1#16, quality := 10#32 },
    { first := ⟨a, a, a⟩, rest := [⟨b, b, b⟩], known := [(⟨a, a, a⟩, 0#8)], other := 1#8 })

/-- A session about to add a 2 × 1 frame of two greys, TRANSP being (70, 70, 70) and DELAY 5 (95 part 3, P2). -/
def greys (a b : Byte) : State :=
  { session (oks 794) with
    arg0 := 0x00010002#32, arg1 := 1#32, delayCs := 5#16, transp := ⟨true, ⟨0x46#8, 0x46#8, 0x46#8⟩⟩
    frameMem := [(0, a), (1, a), (2, a), (3, b), (4, b), (5, b)], quantTable := [greysAnswer a b] }

/-- P2's second frame: a frame that is not square, its transparent index, its local palette. The size is fixed or adopted. -/
theorem test_addFrame_transparent :
    nextHas (fun t => sizeWord t = 0x00010002#32 ∧ t.transIndex = 1#8 ∧
        t.stream.take 24 =
          [0x21#8, 0xF9#8, 0x04#8, 0x09#8, 0x05#8, 0x00#8, 0x01#8, 0x00#8, 0x2C#8, 0x00#8, 0x00#8, 0x00#8, 0x00#8, 0x02#8,
            0x00#8, 0x01#8, 0x00#8, 0x87#8, 0x30#8, 0x30#8, 0x30#8, 0x40#8, 0x40#8, 0x40#8] ∧
        t.stream.drop 786 = [0x08#8, 0x05#8, 0x00#8, 0x01#8, 0x04#8, 0x08#8, 0x08#8, 0x00#8])
      (issue 0x002 { greys 48#8 64#8 with
        lifecycle := .startedSubseq, width := 2#16, height := 1#16, sizeSet := true }) = true ∧
    nextHas (fun t => sizeWord t = 0x00010002#32 ∧ t.transIndex = 1#8)
      (issue 0x002 { greys 48#8 64#8 with lifecycle := .startedSubseq }) = true := by decide +kernel

/-- V-CON-17: the tenth byte fails. V-EXC-2: no session. -/
theorem test_addFrame_stops :
    nextHas (fun t => statusWord t = 0x00000121#32 ∧ sizeWord t = 0x00020002#32 ∧ sessionWord t = 1#32 ∧
        t.stream = [0x02#8, 0x00#8, 0x02#8, 0x00#8, 0xF7#8, 0x00#8, 0x00#8, 0xFF#8, 0x00#8])
      (issue 0x002 (sessionWithFrame (oks 9 ++ [.fail]))) = true ∧
    nextHas (fun t => statusWord t = 0x00000010#32 ∧ t.stream = []) (issue 0x002 (machine (oks 802))) = true := by
  decide +kernel

/-- V-CON-22 and V-CON-23. -/
theorem test_finish :
    nextHas (fun t => statusWord t = 0x00000003#32 ∧ t.stream = [0x3B#8] ∧ t.sink.log.length = 2 ∧ t.delayCs = 0#16)
      (issue 0x003 { session (oks 2) with delayCs := 10#16 }) = true ∧
    nextHas (fun t => statusWord t = 0x00000123#32 ∧ t.stream = [] ∧ t.sink.log.length = 1 ∧ t.delayCs = 0#16)
      (issue 0x003 { session [.fail] with lifecycle := .startedSubseq, ownSink := true, delayCs := 10#16 }) = true := by
  decide +kernel

/-- V-CON-24: FLUSH fails, and CLOSE is not offered. V-CON-26: no double trailer. -/
theorem test_finish_flush :
    nextHas (fun t => statusWord t = 0x00000123#32 ∧ t.stream = [0x3B#8] ∧ t.sink.log.length = 2)
      (issue 0x003 { session [.ok, .fail, .ok] with ownSink := true }) = true ∧
    nextHas (fun t => statusWord t = 0x00000013#32 ∧ t.stream = [])
      (issue 0x003 { machine (oks 2) with lifecycle := .finished }) = true := by decide +kernel

/-- V-CFG-2, V-CFG-3 and V-CFG-4. -/
theorem test_setDelay :
    nextHas (fun t => delayWord t = 1#32) (issue 0x10 { machine [] with arg0 := 14#32 }) = true ∧
    nextHas (fun t => delayWord t = 2#32) (issue 0x10 { machine [] with arg0 := 15#32 }) = true ∧
    nextHas (fun t => delayWord t = 0#32) (issue 0x10 { machine [] with arg0 := 655355#32 }) = true ∧
    nextHas (fun t => delayWord t = 0x0000999A#32) (issue 0x10 { machine [] with arg0 := 0xFFFFFFFF#32 }) = true := by
  decide +kernel

/-- V-CFG-6 and V-CFG-7. -/
theorem test_setRepeat :
    nextHas (fun t => t.repeatCount = 0xFFFFFFFF#32) (issue 0x11 { machine [] with arg0 := 0x80000000#32 }) = true ∧
    nextHas (fun t => t.repeatCount = 65537#32 ∧ (loopExtBytes t).drop 14 = [0x03#8, 0x01#8, 0x01#8, 0x00#8, 0x00#8])
      (issue 0x11 { machine [] with arg0 := 65537#32 }) = true := by decide +kernel

/-- V-CFG-8 and V-CON-9. -/
theorem test_setDispose :
    nextHas (fun t => t.dispose = 0xFFFFFFFF#32) (issue 0x12 { machine [] with arg0 := 0xFFFFFFFE#32 }) = true ∧
    nextHas (fun t => t.dispose = 9#32 ∧ gcePacked t = 0x04#8) (issue 0x12 { machine [] with arg0 := 9#32 }) = true := by
  decide +kernel

/-- V-CFG-10. -/
theorem test_setTransparent :
    nextHas (fun t => transpWord t = 0x01123456#32) (issue 0x13 { machine [] with arg0 := 0xFF123456#32 }) = true := by
  decide +kernel

/-- V-CFG-11. -/
theorem test_clearTransparent :
    nextHas (fun t => transpWord t = 0#32 ∧ t.transIndex = 1#8)
      (issue 0x14 { machine [] with transp := ⟨true, ⟨0x46#8, 0x46#8, 0x46#8⟩⟩, transIndex := 1#8 }) = true := by
  decide +kernel

/-- V-CFG-13 and V-CFG-14. -/
theorem test_setSize :
    nextHas (fun t => sizeWord t = 0x00050140#32 ∧ sessionWord t = 1#32) (issue 0x15 { machine [] with arg0 := 0x00050000#32 })
      = true ∧
    nextHas (fun t => sizeWord t = 0x00010003#32 ∧ t.result = .ok)
      (issue 0x15 { machine [] with
        lifecycle := .startedSubseq, width := 3#16, height := 1#16, sizeSet := true, arg0 := 0x00050005#32 }) = true := by
  decide +kernel

/-- V-CFG-15. -/
theorem test_setQuality :
    nextHas (fun t => t.quality = 1#32) (issue 0x16 { machine [] with arg0 := 0xFFFFFFFB#32 }) = true ∧
    nextHas (fun t => t.quality = 0x7FFFFFFF#32) (issue 0x16 { machine [] with arg0 := 0x7FFFFFFF#32 }) = true := by
  decide +kernel

/-- V-EXC-1 and V-EXC-3. -/
theorem test_illegal_and_dropped :
    nextHas (fun t => statusWord t = 0x00000030#32) (issue 0x102 (machine [])) = true ∧
    nextHas (fun t => statusWord t = 0x00000205#32) (step { waiting with inputs := [cmdWrite 0x00000003#32] }) = true := by
  decide +kernel

/-- An ADD_FRAME that waited, with a command dropped meanwhile, ends as one that did not wait, but for OVERRUN (V-EXC-3). -/
theorem test_answers_come_late :
    nextHas (fun t => statusWord t = 0x00000202#32 ∧ t.stream.length = 802 ∧ t.arg0 = 7#32)
      (step { waiting with
        arg0 := 7#32, overrun := true, running := some { waitingFrame with dropped := true }
        inputs := [.sinkAnswers (oks 802)] }) = true := by decide +kernel

/-- V-EXC-5. -/
theorem test_frame_hazard :
    (match step { waiting with inputs := [.frameWrite 0 0#8] } with | .fault .frameHazard => true | _ => false) = true := by
  decide +kernel

/-- V-RST-1 and V-RST-2: reset while an ADD_FRAME waits keeps the accepted bytes. -/
theorem test_reset :
    nextHas (fun t => statusWord t = 0#32 ∧ t.repeatCount = 0xFFFFFFFF#32 ∧ t.quality = 10#32 ∧ t.stream = [0x02#8])
      (step { waiting with
        running := some { waitingFrame with answered := 1 }
        sink := { present := true, answers := [], log := [⟨.sinkWrite 0x02#8, .ok⟩] }
        inputs := [.reset] }) = true := by decide +kernel

/-- 10_state R23 and R35: a read of STATUS, and of an unmapped offset. -/
theorem test_reads :
    nextHas (fun t => t.readData = 0x00000002#32)
      (step { session [] with lifecycle := .startedSubseq, inputs := [.regRead 4 0x0C] }) = true ∧
    nextHas (fun t => t.readData = 0#32) (step { session [] with readData := 5#32, inputs := [.regRead 4 0x30] }) = true := by
  decide +kernel

/-! ## The units (V-PAL, V-LZW) -/

/-- V-PAL-2 and V-PAL-3: crop and pad. -/
theorem test_reformat :
    reformat ((List.range 12).map fun a => (a, BitVec.ofNat 8 (9 - a / 3))) 2 2 3 1
      = [⟨9#8, 9#8, 9#8⟩, ⟨8#8, 8#8, 8#8⟩, ⟨0#8, 0#8, 0#8⟩] := by decide +kernel

/-- V-PAL-4, V-PAL-5 and V-PAL-6. -/
theorem test_nearest :
    nearestUsed ⟨56#8, 56#8, 56#8⟩ 3#256 [⟨48#8, 48#8, 48#8⟩, ⟨64#8, 64#8, 64#8⟩, ⟨0#8, 0#8, 0#8⟩] = 0 ∧
    nearestUsed ⟨70#8, 70#8, 70#8⟩ 3#256 [⟨48#8, 48#8, 48#8⟩, ⟨64#8, 64#8, 64#8⟩, ⟨0#8, 0#8, 0#8⟩] = 1 ∧
    nearestUsed ⟨0#8, 0#8, 0#8⟩ 3#256 [⟨48#8, 48#8, 48#8⟩, ⟨64#8, 64#8, 64#8⟩, ⟨0#8, 0#8, 0#8⟩] = 0 := by decide +kernel

/-- V-LZW-4, the smallest frame, and V-LZW-5, last row. -/
theorem test_lzw_small :
    (lzwEncode 8 [0#8] LzwUnit.reset).2 = [0x08#8, 0x04#8, 0x00#8, 0x01#8, 0x04#8, 0x04#8, 0x00#8] ∧
    (lzwEncode 8 [0#8, 1#8, 2#8, 2#8, 2#8, 2#8] LzwUnit.reset).2
      = [0x08#8, 0x08#8, 0x00#8, 0x01#8, 0x04#8, 0x10#8, 0x40#8, 0x50#8, 0x40#8, 0x40#8, 0x00#8] := by decide +kernel

/-- V-LZW-6: the width grows, and cd = 1 takes minimum code size 2. -/
theorem test_lzw_depths :
    (lzwEncode 2 [0#8, 1#8, 2#8, 3#8, 0#8, 1#8, 2#8, 3#8] LzwUnit.reset).2
      = [0x02#8, 0x04#8, 0x44#8, 0x34#8, 0x86#8, 0x05#8, 0x00#8] ∧
    (lzwEncode 1 [0#8, 1#8, 1#8, 0#8, 1#8] LzwUnit.reset).2 = [0x02#8, 0x03#8, 0x44#8, 0x62#8, 0x05#8, 0x00#8] := by
  decide +kernel

/-- V-LZW-11: the 254th byte of a sub-block flushes it, and FLUSH_CHAR then finds nothing to emit. -/
theorem test_lzw_full_subblock :
    let r := charOut 0x01#8 { LzwUnit.reset with sbBuf := List.replicate 253 0x6F#8 }
    r.2 = 0xFE#8 :: (List.replicate 253 0x6F#8 ++ [0x01#8]) ∧ (flushChar r.1).2 = [] := by decide +kernel

/-- V-LZW-13: hash arithmetic, and the probe from slot 0. -/
theorem test_hash :
    pairKey 258 5 = 0x05102 ∧ primarySlot 258 5 = 338 ∧ primarySlot 0 0 = 0 ∧ nextSlot 0 (probeStep 0) = 5002 ∧
      nextSlot 5002 (probeStep 0) = 5001 := by decide

/-- 30_encoding R97: two lines of text and the register writes of the second. -/
theorem test_assembler :
    asmTokens [] "ADD_FRAME 2, 1 ; a comment".toList
      = [.text "ADD_FRAME".toList, .text ['2'], .comma, .text ['1']] ∧
    asmWrites (.addFrame 2 1 true)
      = [.regWrite 4 0x04 0x00010002#32, .regWrite 4 0x08 1#32, .regWrite 4 0x00 0x00000002#32] := by decide +kernel

/-! ## Witnesses: a state and operands that meet the hypotheses of each statement that has any -/

/-! ### Encoding and the host port -/

theorem witness_DecodeOfEncodeIsTheCommand : (Instr.start true).wellFormed = true := rfl

/-- Both words decode; they are the two of START. -/
theorem witness_WordSelectsCommandByOpcodeReservedAndOwn :
    decode 0x00000001#32 = .ok (.start false) ∧ decode 0x00000101#32 = .ok (.start true) ∧
      decode 0x00000016#32 = .ok .setQuality ∧ ∀ own, Instr.setQuality ≠ .start own := ⟨rfl, rfl, rfl, by decide⟩

/-- An illegal word for each of the three conditions, written to an idle block. -/
theorem witness_IllegalWordOnlyWritesResult :
    ∀ w ∈ [0x00000000#32, 0x00000004#32, 0x00000201#32, 0x80000010#32, 0x00000102#32],
      (withInput (.regWrite 4 0x00 w)).running = none ∧
      (withInput (.regWrite 4 0x00 w)).inputs = .regWrite 4 0x00 w :: [] ∧ ∀ i, decode w ≠ .ok i := by
  intro w hw
  refine ⟨rfl, rfl, ?_⟩
  fin_cases hw <;> intro i h <;> cases h

/-- The operand bounds at their ends. -/
theorem witness_AssembledOperandsAreReadBack :
    ((0 : Nat) < 65536 ∧ 65535 < 65536) ∧ (-(2 ^ 31) ≤ (-(2 ^ 31) : Int) ∧ (2 ^ 31 - 1 : Int) < 2 ^ 31) ∧
    ((0 : Nat) < 2 ^ 32 ∧ 2 ^ 32 - 1 < 2 ^ 32) ∧ (∃ s : State, s.arg0 = BitVec.ofNat 32 (2 ^ 32 - 1)) ∧
    (∃ s : State, s.arg0 = pairWord 0 65535 ∧ s.arg1 = 1#32) ∧ (∃ s : State, s.arg0 = BitVec.ofInt 32 (-(2 ^ 31))) ∧
    (∃ s : State, s.arg0 = 0#8 ++ 0xFF#8 ++ 0#8 ++ 1#8) :=
  ⟨by decide, by decide, by decide, ⟨{ machine [] with arg0 := BitVec.ofNat 32 (2 ^ 32 - 1) }, rfl⟩,
    ⟨{ machine [] with arg0 := pairWord 0 65535, arg1 := 1#32 }, rfl, rfl⟩,
    ⟨{ machine [] with arg0 := BitVec.ofInt 32 (-(2 ^ 31)) }, rfl⟩,
    ⟨{ machine [] with arg0 := 0#8 ++ 0xFF#8 ++ 0#8 ++ 1#8 }, rfl⟩⟩

theorem witness_StepRunsTheDecodedCommand :
    (withInput (.regWrite 4 0x00 0x00000010#32)).running = none ∧
    (withInput (.regWrite 4 0x00 0x00000010#32)).inputs = .regWrite 4 0x00 0x00000010#32 :: [] ∧
    decode 0x00000010#32 = .ok .setDelay := ⟨rfl, rfl, rfl⟩

/-- A CMD write while an ADD_FRAME waits, and that ADD_FRAME going on. -/
theorem witness_CommandWriteWhileBusyIsDropped :
    (∃ s : State, s.running = some waitingFrame ∧ s.inputs = .regWrite 4 0x00 0x00000003#32 :: []) ∧
    ∃ t, resumeCommand waitingFrame waiting = .next t :=
  ⟨⟨{ waiting with inputs := [.regWrite 4 0x00 0x00000003#32] }, rfl, rfl⟩,
    (nextHas_exists (p := fun _ => true) (by decide +kernel)).imp fun _ h => h.1⟩

/-- Every mapped offset and the first unmapped one. -/
theorem witness_RegisterReadsReturnTheirFields :
    ∀ a ∈ [0x00, 0x04, 0x08, 0x0C, 0x10, 0x14, 0x18, 0x1C, 0x20, 0x24, 0x28, 0x2C, 0x30],
      (withInput (.regRead 4 a)).inputs = .regRead 4 a :: [] ∧ a % 4 = 0 :=
  fun a ha => ⟨rfl, by revert a; decide⟩

/-- ARG0, ARG1, a read-only register, the first unmapped offset. -/
theorem witness_HostWritesReachOnlyTheArguments :
    ∀ a ∈ [0x04, 0x08, 0x0C, 0x2C, 0x30],
      (withInput (.regWrite 4 a 7#32)).inputs = .regWrite 4 a 7#32 :: [] ∧ a % 4 = 0 ∧ a ≠ 0x00 :=
  fun a ha => ⟨rfl, by revert a; decide⟩

/-- A byte access, an access off the boundary, and a legal one, each as a read and as a write. -/
theorem witness_AccessRefusedExactlyWhenNotAnAlignedWord :
    ∀ x ∈ [(1, 4), (4, 2), (4, 4), (8, 0)],
      (withInput (.regRead x.1 x.2)).inputs = .regRead x.1 x.2 :: [] ∧
      (withInput (.regWrite x.1 x.2 0#32)).inputs = .regWrite x.1 x.2 0#32 :: [] :=
  fun _ _ => ⟨rfl, rfl⟩

/-- The first and the last byte of frame memory, with an ADD_FRAME waiting, with a FINISH waiting, and idle. -/
theorem witness_ProducerWriteStoresOrIsTheHazard :
    ∀ a ∈ [0, 47], a < 3 * (machine []).maxPixels ∧
      (withInput (.frameWrite a 1#8)).inputs = .frameWrite a 1#8 :: [] ∧
      (∀ r, (withInput (.frameWrite a 1#8)).running = some r → r.instr ≠ .addFrame) ∧
      (∃ r, waiting.running = some r ∧ r.instr = .addFrame) ∧
      (∀ r, some { waitingFrame with instr := .finish } = some r → r.instr ≠ .addFrame) := by
  intro a ha
  refine ⟨by revert a; decide, rfl, (by intro r h; cases h), ⟨waitingFrame, rfl, rfl⟩, ?_⟩
  intro r h; cases h; decide

theorem witness_NoInputLeavesIdleOrStuck :
    ((machine []).inputs = [] ∧ (machine []).running = none) ∧ (waiting.inputs = [] ∧ waiting.running ≠ none) :=
  ⟨⟨rfl, rfl⟩, rfl, by decide⟩

theorem witness_ResetInputGivesResetValues : (withInput .reset).inputs = .reset :: [] := rfl

/-! ### Commands -/

/-- The hypothesis of the six SET_* statements of one form and of CLEAR_TRANSPARENT. -/
theorem witness_SetCommands : (machine []).running = none := rfl

/-- A later state with the TRANSP and TRANS_INDEX that CLEAR_TRANSPARENT left, and another delay. -/
theorem witness_ClearTransparentClearsTransp :
    ∃ t, exec .clearTransparent (machine []) = .next t ∧
      ∃ u : State, u.delayCs ≠ t.delayCs ∧ u.transp = t.transp ∧ u.transIndex = t.transIndex :=
  ⟨_, rfl, { machine [] with delayCs := 10#16 }, by decide, rfl, rfl⟩

theorem witness_SetRepeatStoresOrMeansNone :
    ({ machine [] with lifecycle := .startedSubseq } : State).lifecycle = .startedSubseq := rfl

theorem witness_SetSizeFixesTheDimensions :
    (machine []).running = none ∧ (machine []).lifecycle ≠ .startedSubseq ∧
    ({ machine [] with lifecycle := .startedSubseq } : State).running = none := ⟨rfl, by decide, rfl⟩

/-- A cause for each command that has one, at the edge of each condition, and none for an ADD_FRAME of exactly MAX_PIXELS. -/
theorem witness_PreconditionExactlyOnItsCauses :
    precondCause (.start true) (session []) ∧
    precondCause (.start false) { machine [] with sink := { present := false, answers := [], log := [] } } ∧
    precondCause .addFrame (machine []) ∧
    precondCause .addFrame { sessionWithFrame [] with arg1 := 2#32 } ∧
    precondCause .addFrame { sessionWithFrame [] with arg0 := 0x00050000#32 } ∧
    precondCause .addFrame { sessionWithFrame [] with arg0 := 0x00000005#32 } ∧
    precondCause .addFrame { sessionWithFrame [] with arg0 := 0x00010011#32 } ∧
    precondCause .addFrame { sessionWithFrame [] with sizeSet := true, width := 17#16, height := 1#16 } ∧
    precondCause .finish (machine []) ∧
    ¬ precondCause .addFrame { sessionWithFrame [] with arg0 := 0x00010010#32 } := by
  simp [precondCause, session, sessionWithFrame, machine, State.reset]

/-- A command without a cause that completes. -/
theorem witness_PreconditionNotRaised :
    ¬ precondCause .finish (session (oks 2)) ∧ ∃ t, exec .finish (session (oks 2)) = .next t ∧ t.running = none := by
  refine ⟨by simp [precondCause, session], ?_⟩
  obtain ⟨t, h1, h2⟩ := nextHas_exists (p := fun t => decide (t.running = none)) (o := exec .finish (session (oks 2)))
    (by decide +kernel)
  exact ⟨t, h1, of_decide_eq_true h2⟩

theorem witness_StartWritesTheSignature :
    ((machine (oks 6)).running = none ∧ (machine (oks 6)).lifecycle = .unstarted ∧ (machine (oks 6)).sink.present = true ∧
      (machine (oks 6)).sink.answers = List.replicate (if false then 7 else 6) .ok ++ []) ∧
    (({ machine (oks 7) with lifecycle := .finished } : State).lifecycle = .finished ∧
      (machine (oks 7)).sink.answers = List.replicate (if true then 7 else 6) .ok ++ []) := ⟨⟨rfl, rfl, rfl, rfl⟩, rfl, rfl⟩

/-- SinkOpen fails; the first and the last byte of the signature fail, without and with SinkOpen. -/
theorem witness_StartOnAFailingSink :
    (machine [.fail]).sink.answers = .fail :: [] ∧
    ((machine [.fail]).sink.answers = List.replicate ((if false then 1 else 0) + 0) .ok ++ .fail :: [] ∧
      ([0x47#8, 0x49#8, 0x46#8, 0x38#8, 0x39#8, 0x61#8] : List Byte)[0]? = some 0x47#8) ∧
    ((machine (oks 6 ++ [.fail])).sink.answers = List.replicate ((if true then 1 else 0) + 5) .ok ++ .fail :: [] ∧
      ([0x47#8, 0x49#8, 0x46#8, 0x38#8, 0x39#8, 0x61#8] : List Byte)[5]? = some 0x61#8) :=
  ⟨rfl, ⟨rfl, rfl⟩, rfl, rfl⟩

/-- The 802 bytes of the red frame, all accepted. -/
theorem witness_AddFrameWritesTheFrame :
    let s := sessionWithFrame (oks 802)
    s.running = none ∧ ¬ precondCause .addFrame s ∧
      s.sink.answers
        = List.replicate
            (frameBytes (prepareFrame s) (lzwEncode 8 (prepareFrame s).frame.indexBuf (prepareFrame s).lzw).2).length .ok
          ++ [] := by
  refine ⟨rfl, by simp [precondCause, sessionWithFrame, session, machine, State.reset], by decide +kernel⟩

/-- The first and the last byte of the red frame fail. -/
theorem witness_AddFrameOnAFailingSink :
    ∀ x ∈ [(0, 0x02#8), (801, 0x00#8)],
      let s := sessionWithFrame (oks x.1 ++ [.fail])
      s.running = none ∧ ¬ precondCause .addFrame s ∧
        (frameBytes (prepareFrame s) (lzwEncode 8 (prepareFrame s).frame.indexBuf (prepareFrame s).lzw).2)[x.1]?
          = some x.2 ∧
        s.sink.answers = List.replicate x.1 .ok ++ .fail :: [] := by
  intro x hx
  refine ⟨rfl, by simp [precondCause, sessionWithFrame, session, machine, State.reset], ?_, rfl⟩
  revert x
  decide +kernel

/-- With VALID = 1, used and unused entries; with VALID = 0. -/
theorem witness_FramePreparationFollowsStepsOneToThree :
    (greys 48#8 64#8).transp.valid = true ∧ (machine []).transp.valid = false ∧
    (prepareFrame (greys 48#8 64#8)).frame.pal[1]? = some ⟨64#8, 64#8, 64#8⟩ ∧
    (prepareFrame (greys 48#8 64#8)).frame.used.getLsbD 1 = true ∧
    (prepareFrame (greys 48#8 64#8)).frame.used.getLsbD 2 = false := by decide +kernel

theorem witness_FirstFrameFixesTheDimensions :
    (sessionWithFrame [.fail]).running = none ∧
    ∃ t, exec .addFrame (sessionWithFrame [.fail]) = .next t ∧ t.running = none ∧ t.result ≠ .precond := by
  refine ⟨rfl, ?_⟩
  obtain ⟨t, h1, h2⟩ := nextHas_exists (p := fun t => decide (t.running = none ∧ t.result ≠ .precond))
    (o := exec .addFrame (sessionWithFrame [.fail])) (by decide +kernel)
  exact ⟨t, h1, of_decide_eq_true h2⟩

/-- An own sink, whose operations all succeed; and the first, second and third failing. -/
theorem witness_FinishEndsTheSession :
    let s := fun answers => ({ session answers with ownSink := true } : State)
    (s (oks 3)).running = none ∧ (s (oks 3)).lifecycle = .startedFirst ∧
    (s (oks 3)).sink.answers
      = List.replicate ([.sinkWrite 0x3B#8, .sinkFlush] ++ (if true then [.sinkClose] else []) : List SinkOp).length .ok ++ [] ∧
    ∀ k ∈ [0, 1, 2], ∃ (pre : List SinkOp) (op : SinkOp) (post : List SinkOp),
      [.sinkWrite 0x3B#8, .sinkFlush, .sinkClose] = pre ++ op :: post ∧
      (s (oks k ++ [.fail])).sink.answers = List.replicate pre.length .ok ++ .fail :: [] := by
  refine ⟨rfl, rfl, rfl, ?_⟩
  intro k hk
  fin_cases hk
  · exact ⟨[], .sinkWrite 0x3B#8, [.sinkFlush, .sinkClose], rfl, rfl⟩
  · exact ⟨[.sinkWrite 0x3B#8], .sinkFlush, [.sinkClose], rfl, rfl⟩
  · exact ⟨[.sinkWrite 0x3B#8, .sinkFlush], .sinkClose, [], rfl, rfl⟩

/-- A FINISH that waits after one answer. -/
theorem witness_WaitingCommandHasWrittenNoRegister :
    (session (oks 1)).running = none ∧ ∃ t, exec .finish (session (oks 1)) = .next t ∧ t.running ≠ none := by
  refine ⟨rfl, ?_⟩
  obtain ⟨t, h1, h2⟩ := nextHas_exists (p := fun t => decide (t.running ≠ none)) (o := exec .finish (session (oks 1)))
    (by decide +kernel)
  exact ⟨t, h1, of_decide_eq_true h2⟩

/-- The same FINISH: its one answer is the first stretch. -/
theorem witness_AnswersInTwoStretchesEndTheSameWay :
    (session []).running = none ∧
    ∃ t, exec .finish { session [] with sink := { (session []).sink with answers := oks 1 } } = .next t ∧ t.running ≠ none := by
  obtain ⟨h0, h⟩ := witness_WaitingCommandHasWrittenNoRegister
  exact ⟨h0, h⟩

theorem witness_ArgumentsAreLatched : ∃ t, resumeCommand waitingFrame waiting = .next t :=
  witness_CommandWriteWhileBusyIsDropped.2

/-! ### The units -/

/-- The last pixel of a 3 × 1 image. -/
theorem witness_ReformatCropsAndPads : (2 : Nat) < 3 ∧ (0 : Nat) < 1 := by decide

/-- Two memories that differ at the first byte behind a 2 × 2 frame. -/
theorem witness_ReformatReadsOnlyTheFrame :
    ∀ a, a < 3 * (2 * 2) → frameRead redMem a = frameRead (cellsPut redMem 12 5#8) a :=
  fun _ ha => (frameRead_put_other redMem 5#8 (Nat.ne_of_lt ha)).symm

/-- A used entry, an unused one, and no used one; VALID 0 and 1. -/
theorem witness_TransparentIndexIsTheNearestUsedEntry :
    let f : FrameUnit := { pix := [], pal := [red, red], palLen := 2, used := 2#256, indexBuf := [] }
    let s : State := { machine [] with frame := f, transp := ⟨true, red⟩ }
    s.frame.palLen = s.frame.pal.length ∧ s.frame.palLen ≤ 256 ∧ s.transp.valid = true ∧ (machine []).transp.valid = false ∧
    (s.frame.pal[1]? = some red ∧ s.frame.used.getLsbD 1 = true) ∧
    (∀ (i : Nat) (p : Rgb), (machine []).frame.pal[i]? = some p → (machine []).frame.used.getLsbD i = false) :=
  ⟨rfl, by decide, rfl, rfl, ⟨rfl, rfl⟩, fun i p h => by cases h⟩

/-- A palette of one entry, and a full one. -/
theorem witness_PaletteIsPaddedTo768Bytes :
    let f : FrameUnit := { pix := [], pal := [red], palLen := 1, used := 0#256, indexBuf := [] }
    let g : FrameUnit := { pix := [], pal := List.replicate 256 red, palLen := 256, used := 0#256, indexBuf := [] }
    (f.palLen = f.pal.length ∧ f.palLen ≤ 256 ∧ f.pal[0]? = some red ∧ 3 * f.palLen ≤ 3 ∧ 3 * f.palLen ≤ 767) ∧
    (g.palLen = g.pal.length ∧ g.palLen ≤ 256 ∧ g.pal[255]? = some red) :=
  ⟨⟨rfl, by decide, rfl, by decide, by decide⟩, by decide +kernel⟩

theorem witness_FrameBlocksInTheirOrder :
    (session []).lifecycle = .startedFirst ∧
    ({ session [] with lifecycle := .startedSubseq } : State).lifecycle = .startedSubseq := ⟨rfl, rfl⟩

/-- The machine that also knows the quantizer's answer for a frame of one black pixel row, 2 × 1 padded to 2 × 2. -/
def machineOfTwo : State :=
  { machine [] with
    quantTable := (machine []).quantTable ++
      [({ pixels := List.replicate 4 ⟨0#8, 0#8, 0#8⟩, width := 2#16, height := 2#16, quality := 10#32 },
        { first := ⟨0#8, 0#8, 0#8⟩, rest := [], known := [], other := 0#8 })] }

/-- A session of two frames that differ, the first repeated for ever, each command's answers given just before it. -/
theorem witness_SuccessfulSessionFollowsTheGrammar :
    machineOfTwo.running = none ∧ machineOfTwo.lifecycle = .unstarted ∧
    ∃ t, runAllOk
      [⟨.start false, 0#32, 0#32, [], oks 6⟩, ⟨.setRepeat, 0#32, 0#32, [], []⟩,
        ⟨.addFrame, 0x00020002#32, 1#32, redMem, oks 821⟩,
        ⟨.addFrame, 0x00010002#32, 1#32, (List.range 6).map fun a => (a, 0#8), oks 795⟩,
        ⟨.finish, 0#32, 0#32, [], oks 2⟩] machineOfTwo = some t :=
  ⟨rfl, rfl, Option.isSome_iff_exists.mp (by decide +kernel)⟩

/-- A unit whose primary slot for the pair (0, 0) holds another key. -/
theorem witness_LookupEndsAtTheKeyOrAnEmptySlot :
    let u : LzwUnit := { LzwUnit.reset with htab := [(0, 5), (5002, 0)] }
    cellsWf u.htab ∧ (∀ e ∈ u.htab, e.1 < 5003) ∧ u.htab.length < 5003 ∧ u.ent < 4096 ∧ (0 : Nat) < 256 := by
  refine ⟨by decide, by decide, by decide, by decide, by decide⟩

/-- The hypotheses that the statements on a frame's data region share, for the smallest and the largest colour depth. -/
theorem witness_DataRegion :
    ∀ cd ∈ [1, 8], 1 ≤ cd ∧ cd ≤ 8 ∧ [0#8, 3#8] ≠ [] ∧ ∀ c ∈ [0#8, 3#8], c.toNat < 2 ^ max 2 cd := by decide

/-- Two codes that follow one another, the first of them a Clear; the codes of `witness_ClearsComeAtTheResetCadence` show two
of which the second is a reset Clear. -/
theorem witness_CodeWidthsGrowAndDropOnlyAtAClear :
    1 ≤ 1 ∧ 1 ≤ 8 ∧ [0#8, 1#8, 2#8, 3#8] ≠ [] ∧ (∀ c ∈ [0#8, 1#8, 2#8, 3#8], c.toNat < 2 ^ max 2 1) ∧
    absCodes (max 2 1) [0#8, 1#8, 2#8, 3#8] = [] ++ (4, 3) :: (0, 3) :: [(1, 3), (2, 3), (3, 4), (5, 4)] := by decide +kernel

/-! ### A run of one colour until the table is reset -/

/-- The dictionary holds no code of its own shape above the free one, and every pair's code is larger than its string's. -/
structure Grows (mcs : Nat) (a : AbsLzw) : Prop where
  ent : a.ent < 4096
  entCode : a.ent ≠ 2 ^ mcs
  larger : ∀ e ∈ a.dict, e.1.1 < e.2 ∧ e.2 < a.free ∧ 2 ^ mcs + 2 ≤ e.2
  entFree : a.ent < a.free
  free : a.free ≤ 4096
  freeLow : 2 ^ mcs + 2 ≤ a.free

theorem assocGet_mem {α β : Type} [DecidableEq α] {m : List (α × β)} {a : α} {v : β} (h : assocGet m a = some v) :
    (a, v) ∈ m := by
  induction m with
  | nil => cases h
  | cons c m ih =>
    obtain ⟨k, w⟩ := c
    by_cases e : k = a
    · simp only [assocGet, e, if_true, Option.some.injEq] at h; simp [e, h]
    · simp only [assocGet, e, if_false] at h; exact List.mem_cons_of_mem _ (ih h)

/-- A run of zeros is extended until it is in the dictionary no more: the larger codes bound the run. -/
theorem run_to_miss (mcs : Nat) (a : AbsLzw) (h : Grows mcs a) :
    ∃ (n : Nat) (b : AbsLzw), Grows mcs b ∧ b.free = a.free ∧ assocGet b.dict (b.ent, 0) = none ∧
      ∀ rest, absCodesFrom mcs (List.replicate n 0#8 ++ rest) a = absCodesFrom mcs rest b := by
  induction hk : 4096 - a.ent using Nat.strong_induction_on generalizing a with
  | _ k ih =>
    cases hg : assocGet a.dict (a.ent, 0) with
    | none => exact ⟨0, a, h, rfl, hg, fun _ => rfl⟩
    | some code =>
      have hm := h.larger _ (assocGet_mem hg)
      have h1 := h.ent
      have h2 := h.free
      dsimp only at hm
      obtain ⟨n, b, hb, hf, hn, hr⟩ := ih (4096 - code) (by omega) { a with ent := code }
        ⟨by dsimp only; omega, by dsimp only; omega, h.larger, hm.2.1, h.free, h.freeLow⟩ rfl
      refine ⟨n + 1, b, hb, hf, hn, fun rest => ?_⟩
      rw [List.replicate_succ, List.cons_append, absCodesFrom]
      simp [absPixel, hg, hr]

/-- Run on until the table is reset: the codes before the Clear are no Clears. -/
theorem run_to_clear (mcs : Nat) (a : AbsLzw) (h : Grows mcs a) :
    ∃ (n : Nat) (mid post : List (Nat × Nat)) (w : Nat),
      absCodesFrom mcs (List.replicate n 0#8) a = mid ++ (2 ^ mcs, w) :: post ∧ ∀ e ∈ mid, e.1 ≠ 2 ^ mcs := by
  have hp : 0 < 2 ^ mcs := Nat.two_pow_pos mcs
  induction hk : 4096 - a.free using Nat.strong_induction_on generalizing a with
  | _ k ih =>
    obtain ⟨n, b, hb, hf, hn, hr⟩ := run_to_miss mcs a h
    have hle := hb.free
    rcases Nat.lt_or_ge b.free 4096 with hlt | hge
    · obtain ⟨n', mid, post, w, he, hmid⟩ := ih (4096 - (b.free + 1)) (by omega)
        { absWiden b with dict := ((b.ent, 0), b.free) :: b.dict, free := b.free + 1, ent := 0 }
        ⟨by dsimp only; omega, by dsimp only; omega,
          by
            intro e he
            rcases List.mem_cons.mp he with rfl | he
            · exact ⟨hb.entFree, Nat.lt_succ_self _, hb.freeLow⟩
            · exact ⟨(hb.larger e he).1, Nat.lt_succ_of_lt (hb.larger e he).2.1, (hb.larger e he).2.2⟩,
          by dsimp only; omega, by dsimp only; omega, Nat.le_succ_of_le hb.freeLow⟩ rfl
      refine ⟨n + (1 + n'), (b.ent, b.width) :: mid, post, w, ?_, ?_⟩
      · rw [List.replicate_add, hr, List.replicate_add, List.replicate_one, List.singleton_append, absCodesFrom]
        simp [absPixel, hn, hlt, he]
      · intro e he
        rcases List.mem_cons.mp he with rfl | he
        · exact hb.entCode
        · exact hmid e he
    · refine ⟨n + 1, [(b.ent, b.width)],
        absCodesFrom mcs [] { dict := [], free := 2 ^ mcs + 2, ent := 0, width := mcs + 1 }, (absWiden b).width, ?_, ?_⟩
      · rw [List.replicate_add, hr, List.replicate_one]
        simp [absCodesFrom, absPixel, hn, Nat.not_lt.mpr hge]
      · simpa using hb.entCode

/-- A long enough run of zeros: two Clears with no Clear between, for the smallest and the largest colour depth. -/
theorem witness_ClearsComeAtTheResetCadence :
    ∀ cd ∈ [1, 2, 8], ∃ (indices : List Byte) (mid post : List (Nat × Nat)) (w1 w2 : Nat),
      1 ≤ cd ∧ cd ≤ 8 ∧ indices ≠ [] ∧ (∀ c ∈ indices, c.toNat < 2 ^ max 2 cd) ∧
      absCodes (max 2 cd) indices = [] ++ (2 ^ max 2 cd, w1) :: mid ++ (2 ^ max 2 cd, w2) :: post ∧
      ∀ e ∈ mid, e.1 ≠ 2 ^ max 2 cd := by
  intro cd hcd
  have hc : 1 ≤ cd ∧ cd ≤ 8 ∧ max 2 cd ≤ 8 := by revert cd; decide
  generalize max 2 cd = mcs at hc ⊢
  have hp : 2 ^ mcs ≤ 2 ^ 8 := Nat.pow_le_pow_right (by decide) hc.2.2
  have hp' : 0 < 2 ^ mcs := Nat.two_pow_pos mcs
  obtain ⟨n, mid, post, w, he, hmid⟩ := run_to_clear mcs
    { dict := [], free := 2 ^ mcs + 2, ent := 0, width := mcs + 1 }
    ⟨by dsimp only; omega, by dsimp only; omega, (fun e he => by cases he), by dsimp only; omega,
      by dsimp only; omega, Nat.le_refl _⟩
  refine ⟨0#8 :: List.replicate n 0#8, mid, post, mcs + 1, w, hc.1, hc.2.1, by simp, ?_, ?_, hmid⟩
  · intro c hc
    have : c = 0#8 := List.eq_of_mem_replicate (n := n + 1) hc
    simp [this]
  · simp [absCodes, he]


/-! ### Rules of the whole machine -/

/-- For each command a state in which it answers a next state, complete or waiting: the hypothesis of the frames. -/
theorem witness_CommandsAnswer :
    ∀ i ∈ [Instr.start true, .addFrame, .finish, .setDelay, .setRepeat, .setDispose, .setTransparent, .clearTransparent,
        .setSize, .setQuality],
      (∃ t, exec i (sessionWithFrame [.fail]) = .next t ∧ t.running = none) ∧ ∃ t, exec i (machine []) = .next t := by
  intro i hi
  have h1 : nextHas (fun t => decide (t.running = none)) (exec i (sessionWithFrame [.fail])) = true := by
    fin_cases hi <;> decide +kernel
  have h2 : nextHas (fun _ => true) (exec i (machine [])) = true := by fin_cases hi <;> decide +kernel
  exact ⟨(nextHas_exists h1).imp fun _ h => ⟨h.1, of_decide_eq_true h.2⟩, (nextHas_exists h2).imp fun _ h => h.1⟩

/-- The premises of LifecycleFollowsTheStateMachine in every STATE: FINISH completes in each. -/
theorem witness_LifecycleFollowsTheStateMachine :
    ∀ l ∈ [Lifecycle.unstarted, .startedFirst, .startedSubseq, .finished],
      ∃ t, exec .finish { machine (oks 3) with lifecycle := l } = .next t ∧ t.running = none := by
  intro l hl
  have h : nextHas (fun t => decide (t.running = none)) (exec .finish { machine (oks 3) with lifecycle := l }) = true := by
    fin_cases hl <;> decide +kernel
  exact (nextHas_exists h).imp fun _ h => ⟨h.1, of_decide_eq_true h.2⟩

/-- A running session of a fixed size with an input to come has the invariant, and steps. -/
theorem witness_StepKeepsTheInvariant :
    let s : State := { session [] with
      lifecycle := .startedSubseq, width := 2#16, height := 2#16, sizeSet := true, inputs := [.frameWrite 47 9#8] }
    s.Inv ∧ ∃ t, step s = .next t := by
  refine ⟨⟨by decide, by decide, by decide, .inl rfl, .inl rfl, by decide, fun _ => rfl, by decide, by decide, by decide,
    (fun r h => by cases h), (fun r h => by cases h)⟩, ?_⟩
  exact (nextHas_exists (p := fun _ => true) (by decide +kernel)).imp fun _ h => h.1

/-- A FINISH that waits after its first answer. -/
def finishWaits : Running :=
  { instr := .finish, arg0 := 0#32, arg1 := 0#32, present := true, answered := 1, dropped := false }

/-- The session while that FINISH waits, with its next answer to come. -/
def finishing : State :=
  { session [] with
    running := some finishWaits
    inputs := [.sinkAnswers [.ok]]
    sink := { present := true, answers := [], log := [⟨.sinkWrite 0x3B#8, .ok⟩] } }

/-- It has the invariant too, and steps. -/
theorem witness_InvariantWhileRunning : finishing.Inv ∧ ∃ t, step finishing = .next t := by
  refine ⟨⟨by decide, by decide, by decide, .inl rfl, .inl rfl, by decide, fun _ => rfl, by decide, by decide, by decide,
    (fun r h => rfl), ?_⟩, ?_⟩
  · intro r h
    cases h
    obtain ⟨t, h1, h2⟩ := nextHas_exists (p := fun t => decide (t = finishing)) (o := resumeCommand finishWaits finishing)
      (by decide +kernel)
    rw [h1, of_decide_eq_true h2]
  · exact (nextHas_exists (p := fun _ => true) (by decide +kernel)).imp fun _ h => h.1

/-- A level, answers to an idle block, and answers to a waiting FINISH. -/
theorem witness_SinkInputsReachTheSinkPort :
    (withInput (.sinkPresent false)).inputs = .sinkPresent false :: [] ∧
    ((withInput (.sinkAnswers [.ok])).inputs = .sinkAnswers [.ok] :: [] ∧ (withInput (.sinkAnswers [.ok])).running = none) ∧
    (finishing.inputs = .sinkAnswers [.ok] :: [] ∧ finishing.running = some finishWaits) := ⟨rfl, ⟨rfl, rfl⟩, rfl, rfl⟩

/-- Internal memories in use and within their widths, and a step. -/
theorem witness_StepKeepsInternalWidths :
    let s : State := { session (oks 2) with
      frame := { pix := [red], pal := [red], palLen := 1, used := 1#256, indexBuf := [0#8] }
      lzw := { LzwUnit.reset with
        initBits := 9, nbits := 12, maxcode := 4096, clear := 256, eoi := 257, free := 4096, ent := 4095, n := 1, curPix := 1
        htab := [(0, 0), (5002, 0xFFFFF)], codetab := [(0, 258), (5002, 4095)] }
      inputs := [cmdWrite 0x00000003#32] }
    s.InternalsFit ∧ ∃ t, step s = .next t := by
  refine ⟨⟨⟨rfl, by decide, rfl, by decide, by decide⟩, ?_, by decide⟩, ?_⟩
  · constructor <;> decide +kernel
  · exact (nextHas_exists (p := fun _ => true) (by decide +kernel)).imp fun _ h => h.1

end Sys2Proof.Tests
end

section
/-! PROOFS. How a command ends, said once for all ten: it completes or it waits for its sink, and either way it leaves its
operands, frame memory and the world around the block alone (00_scope R7, 10_state R25, 20_memory R71). -/

namespace Sys2Proof.Machine

/-! ## What no command writes -/

/-- The part of a state that no command writes: the operands, frame memory, the SINK_PRESENT level, the inputs to come, the
last host read and the parameters. -/
structure Surroundings where
  arg0 : Word
  arg1 : Word
  frameMem : Memory
  present : Bool
  inputs : List HostInput
  readData : Word
  maxPixels : Nat
  quantTable : List (QuantCall × Quantization)

/-- The surroundings of a state. -/
def State.surroundings (s : State) : Surroundings :=
  { arg0 := s.arg0, arg1 := s.arg1, frameMem := s.frameMem, present := s.sink.present, inputs := s.inputs,
    readData := s.readData, maxPixels := s.maxPixels, quantTable := s.quantTable }

@[simp] theorem prepareFrame_surroundings (s : State) : (prepareFrame s).surroundings = s.surroundings := by
  rw [prepareFrame_eq]; rfl
@[simp] theorem completeFrame_surroundings (s : State) : (completeFrame s).surroundings = s.surroundings := by
  unfold completeFrame; split <;> rfl

@[simp] theorem completeFrame_running (s : State) : (completeFrame s).running = none := finishCmd_running ..

/-! ## Completing, waiting, and the way there -/

/-- A command accepted in `s` has completed in `t`. -/
def Completed (s t : State) : Prop := t.running = none ∧ t.surroundings = s.surroundings

/-- The command `i` accepted in `s` waits in `t`: every answer there was is ok and is used, and nothing else has changed but the
sink's log and the running record. -/
def Waits (i : Instr) (s t : State) : Prop :=
  ∃ recs : List SinkRecord, s.sink.answers = List.replicate recs.length .ok ∧
    t = waitForSink i s { s.sink with answers := [], log := recs ++ s.sink.log }

/-- A command accepted in `s0` has come to `s`, with some of its sink operations answered, all ok. -/
def Underway (s0 s : State) : Prop :=
  s.surroundings = s0.surroundings ∧
  ∃ recs : List SinkRecord,
    s.sink.log = recs ++ s0.sink.log ∧ s0.sink.answers = List.replicate recs.length .ok ++ s.sink.answers

theorem Waits.surroundings {i : Instr} {s t : State} (h : Waits i s t) : t.surroundings = s.surroundings := by
  obtain ⟨recs, -, rfl⟩ := h
  rfl

/-- A command that has offered nothing yet is underway. -/
theorem Underway.of_same_sink {s0 s : State} (h : s.surroundings = s0.surroundings) (hs : s.sink = s0.sink) :
    Underway s0 s :=
  ⟨h, [], by simp [hs], by simp [hs]⟩

/-- `finish` ends a command that has left its surroundings alone. -/
theorem Completed.finishCmd (code : ResultCode) {s0 s : State} (h : s.surroundings = s0.surroundings) :
    Completed s0 (finishCmd code s) := ⟨rfl, h⟩

/-- `raise` ends a command that has left its surroundings alone. -/
theorem Completed.raiseCause (c : Cause) {s0 s : State} (h : s.surroundings = s0.surroundings) :
    Completed s0 (raiseCause c s) := ⟨rfl, h⟩

/-- The rule for offered operations: when the continuations end the command properly, so does offering the operations. -/
theorem offerThen_completes_or_waits {i : Instr} {s0 s : State} {ops : List SinkOp} {onOk onFail : State → State}
    (h : Underway s0 s)
    (hOk : ∀ p : SinkPort, Underway s0 { s with sink := p } →
      Completed s0 (onOk { s with sink := p }) ∨ Waits i s0 (onOk { s with sink := p }))
    (hFail : ∀ s1 : State, s1.surroundings = s0.surroundings → Completed s0 (onFail s1)) :
    Completed s0 (offerThen i s0 s ops onOk onFail) ∨ Waits i s0 (offerThen i s0 s ops onOk onFail) := by
  obtain ⟨hsame, recs, hlog, hans⟩ := h
  have hpresent : s.sink.present = s0.sink.present := congrArg Surroundings.present hsame
  rcases sinkOffer_cases ops s.sink with
    ⟨rest, ha, -⟩ | ⟨pre, op, post, rest, rfl, ha, -⟩ | ⟨pre, op, post, rfl, ha, -⟩
  · rw [offerThen_accepted i s0 s ops onOk onFail rest ha]
    exact hOk _ ⟨hsame, okRecords ops ++ recs, by simp [hlog],
      by simp [hans, ha, ← List.append_assoc, List.replicate_append_replicate, Nat.add_comm]⟩
  · rw [offerThen_failed i s0 s pre op post onOk onFail rest ha]
    exact .inl (hFail _ hsame)
  · rw [offerThen_unanswered i s0 s pre op post onOk onFail ha]
    exact .inr ⟨okRecords pre ++ recs, by simp [hans, ha, List.replicate_append_replicate, Nat.add_comm],
      by simp [hlog, hpresent]⟩

/-! ## The commands that talk to the sink -/

/-- START offers SinkOpen (of an own sink) and then the signature; the second stretch is underway from the first (R181). -/
theorem startSession_completes_or_waits (own : Bool) (s : State) :
    Completed s (startSession own s (clearSticky s)) ∨ Waits (.start own) s (startSession own s (clearSticky s)) := by
  refine offerThen_completes_or_waits (.of_same_sink rfl rfl) (fun p hp => ?_) (fun _ h => .raiseCause _ h)
  exact offerThen_completes_or_waits hp (fun _ h => .inl (.finishCmd .ok h.1)) (fun _ h => .raiseCause _ h)

theorem submitFrame_completes_or_waits (s : State) :
    Completed s (submitFrame s (prepareFrame s)) ∨ Waits .addFrame s (submitFrame s (prepareFrame s)) := by
  refine offerThen_completes_or_waits (.of_same_sink (prepareFrame_surroundings s) (prepareFrame_sink s))
    (fun _ h => .inl ⟨completeFrame_running _, ?_⟩) (fun _ h => .raiseCause _ h)
  rw [completeFrame_surroundings, h.1]

theorem finishSession_completes_or_waits (s : State) :
    Completed s (finishSession s) ∨ Waits .finish s (finishSession s) :=
  offerThen_completes_or_waits (.of_same_sink rfl rfl) (fun _ h => .inl (.finishCmd .ok h.1))
    (fun _ h => .raiseCause _ h)

/-! ## All commands -/

/-- Every command completes or waits for its sink; none faults or is refused. -/
theorem exec_completes_or_waits (i : Instr) (s : State) :
    ∃ t, exec i s = .next t ∧ (Completed s t ∨ Waits i s t) := by
  cases i with
  | start own =>
    rw [exec_start, execStart]
    split
    · exact ⟨_, rfl, .inl (.raiseCause _ rfl)⟩
    · split
      · exact ⟨_, rfl, .inl (.raiseCause _ rfl)⟩
      · exact ⟨_, rfl, startSession_completes_or_waits own s⟩
  | addFrame =>
    rw [exec_addFrame, execAddFrame]
    split
    · exact ⟨_, rfl, .inl (.raiseCause _ rfl)⟩
    · exact ⟨_, rfl, submitFrame_completes_or_waits s⟩
  | finish =>
    rw [exec_finish, execFinish]
    split
    · exact ⟨_, rfl, finishSession_completes_or_waits s⟩
    · exact ⟨_, rfl, .inl (.raiseCause _ rfl)⟩
  | setSize =>
    rw [exec_setSize, execSetSize]
    split <;> exact ⟨_, rfl, .inl (.finishCmd _ rfl)⟩
  | setDelay | setRepeat | setDispose | setTransparent | clearTransparent | setQuality =>
    exact ⟨_, rfl, .inl (.finishCmd _ rfl)⟩

/-- No command writes the surroundings. -/
theorem exec_surroundings {i : Instr} {s t : State} (h : exec i s = .next t) : t.surroundings = s.surroundings := by
  obtain ⟨t', ht', hend⟩ := exec_completes_or_waits i s
  obtain rfl : t' = t := by simpa [ht'] using h
  exact hend.elim And.right Waits.surroundings

/-- A command that is still running after its acceptance waits for its sink. -/
theorem exec_waits {i : Instr} {s t : State} (h : exec i s = .next t) (ht : t.running ≠ none) : Waits i s t := by
  obtain ⟨t', ht', hend⟩ := exec_completes_or_waits i s
  obtain rfl : t' = t := by simpa [ht'] using h
  exact hend.resolve_left fun hdone => ht hdone.1

end Sys2Proof.Machine
end

section
/-! PROOFS. A command that waited ends as one that had all its answers at once (00_scope R7, 20_memory R71; log 4): its
acceptance is rebuilt exactly, and what the host did meanwhile, which is nothing here, is put back. -/

namespace Sys2Proof.Machine

/-- Going on is running the command again from its acceptance, and no command faults. -/
theorem resumeCommand_eq (r : Running) (s : State) :
    ∃ t, exec r.instr (acceptedState r s) = .next t ∧ resumeCommand r s = .next (restoreMeanwhile r s t) := by
  obtain ⟨t, ht, -⟩ := exec_completes_or_waits r.instr (acceptedState r s)
  exact ⟨t, ht, by simp [resumeCommand, ht]⟩

/-- Further answers queue behind those not yet used (20_memory R66). -/
def State.addAnswers (answers : List SinkAnswer) (s : State) : State :=
  { s with sink := { s.sink with answers := s.sink.answers ++ answers } }

theorem receiveAnswers_idle {s : State} (answers : List SinkAnswer) (h : s.running = none) :
    receiveAnswers answers s = .next (s.addAnswers answers) := by
  simp [receiveAnswers, h, State.addAnswers]

theorem receiveAnswers_running {s : State} {r : Running} (answers : List SinkAnswer) (h : s.running = some r) :
    receiveAnswers answers s = resumeCommand r (s.addAnswers answers) := by
  simp [receiveAnswers, h, State.addAnswers]

/-- A command that has just run has dropped no CMD write. -/
theorem exec_running_not_dropped {i : Instr} {s t : State} (h : exec i s = .next t) :
    t.running.map (fun r => { r with dropped := false }) = t.running := by
  by_cases ht : t.running = none
  · simp [ht]
  · obtain ⟨recs, -, rfl⟩ := exec_waits h ht
    rfl

/-- Putting back what the host did meanwhile changes nothing when the host did nothing. -/
theorem restoreMeanwhile_of_exec {r : Running} {s a t : State} (h : exec r.instr a = .next t)
    (hsame : a.surroundings = s.surroundings) (hdropped : r.dropped = false) : restoreMeanwhile r s t = t := by
  have hst : s.surroundings = t.surroundings := ((exec_surroundings h).trans hsame).symm
  have h0 : s.arg0 = t.arg0 := congrArg Surroundings.arg0 hst
  have h1 : s.arg1 = t.arg1 := congrArg Surroundings.arg1 hst
  have hpresent : s.sink.present = t.sink.present := congrArg Surroundings.present hst
  simp only [restoreMeanwhile, hdropped, h0, h1, hpresent, Bool.or_false, exec_running_not_dropped h]

/-- The acceptance of a waiting command is rebuilt exactly, the answers it has had in front of the later ones. -/
theorem acceptedState_of_waits {i : Instr} {s t : State} (later : List SinkAnswer) (hidle : s.running = none)
    (h : Waits i s t) :
    ∃ r : Running, t.running = some r ∧ r.instr = i ∧ r.dropped = false ∧
      acceptedState r (t.addAnswers later) = s.addAnswers later := by
  obtain ⟨recs, hans, rfl⟩ := h
  refine ⟨_, waitForSink_running .., rfl, rfl, ?_⟩
  simp [acceptedState, State.addAnswers, waitForSink, hans, hidle]

/-- A waiting command that gets later answers ends as it would have, had they followed its first ones at once. -/
theorem receiveAnswers_of_waits {i : Instr} {s t : State} (later : List SinkAnswer) (hidle : s.running = none)
    (h : Waits i s t) : receiveAnswers later t = exec i (s.addAnswers later) := by
  obtain ⟨r, hrun, rfl, hdropped, hacc⟩ := acceptedState_of_waits later hidle h
  obtain ⟨u, hu, hresume⟩ := resumeCommand_eq r (t.addAnswers later)
  rw [hacc] at hu
  have hsame : (s.addAnswers later).surroundings = (t.addAnswers later).surroundings := h.surroundings.symm
  rw [receiveAnswers_running later hrun, hresume, restoreMeanwhile_of_exec hu hsame hdropped, hu]

/-- Settles O30: a command still running waits, and a waiting command goes on from its own acceptance with both lists. -/
theorem answersInTwoStretchesEndTheSameWay : Obligations.AnswersInTwoStretchesEndTheSameWay := by
  intro i s t first later hidle hexec hbusy
  exact receiveAnswers_of_waits (s := { s with sink := { s.sink with answers := first } }) later hidle
    (exec_waits hexec hbusy)

end Sys2Proof.Machine
end

section
/-! PROOFS. What a step takes from the inputs and what it leaves alone (00_scope R9; log 2, 7, 8). -/

namespace Sys2Proof.Machine

/-- The part of the surroundings that a run supplies: the inputs still to come, MAX_PIXELS and the quantizer answers given as
data. -/
def Surroundings.supplied (e : Surroundings) : List HostInput × Nat × List (QuantCall × Quantization) :=
  (e.inputs, e.maxPixels, e.quantTable)

/-- What a run supplies to a state. -/
def State.supplied (s : State) : List HostInput × Nat × List (QuantCall × Quantization) := s.surroundings.supplied

theorem exec_supplied {i : Instr} {s t : State} (h : exec i s = .next t) : t.supplied = s.supplied :=
  congrArg Surroundings.supplied (exec_surroundings h)

theorem issueCommand_supplied {w : Word} {s t : State} (h : issueCommand w s = .next t) : t.supplied = s.supplied := by
  unfold issueCommand at h
  split at h
  · cases h; rfl
  · split at h
    · exact exec_supplied h
    · cases h; rfl

theorem hostWrite_supplied {size offset : Nat} {value : Word} {s t : State}
    (h : hostWrite size offset value s = .next t) : t.supplied = s.supplied := by
  unfold hostWrite at h
  split at h
  · split at h
    · exact issueCommand_supplied h
    all_goals (cases h; rfl)
  · cases h

theorem hostRead_supplied {size offset : Nat} {s t : State} (h : hostRead size offset s = .next t) :
    t.supplied = s.supplied := by
  unfold hostRead at h
  split at h <;> cases h
  rfl

theorem producerWrite_supplied {a : Nat} {v : Byte} {s t : State} (h : producerWrite a v s = .next t) :
    t.supplied = s.supplied := by
  unfold producerWrite at h
  split at h
  · cases h
  · split at h <;> cases h
    rfl

theorem resumeCommand_supplied {r : Running} {s t : State} (h : resumeCommand r s = .next t) :
    t.supplied = s.supplied := by
  obtain ⟨u, hu, hresume⟩ := resumeCommand_eq r s
  obtain rfl : restoreMeanwhile r s u = t := by simpa [hresume] using h
  exact (exec_supplied hu : u.supplied = (acceptedState r s).supplied)

theorem receiveAnswers_supplied {answers : List SinkAnswer} {s t : State} (h : receiveAnswers answers s = .next t) :
    t.supplied = s.supplied := by
  cases hrun : s.running with
  | none => rw [receiveAnswers_idle answers hrun] at h; cases h; rfl
  | some r => rw [receiveAnswers_running answers hrun] at h; exact (resumeCommand_supplied h).trans rfl

/-- No input changes what the run supplies. -/
theorem takeInput_supplied {input : HostInput} {s t : State} (h : takeInput input s = .next t) :
    t.supplied = s.supplied := by
  cases input with
  | regWrite size offset value => exact hostWrite_supplied h
  | regRead size offset => exact hostRead_supplied h
  | frameWrite offset value => exact producerWrite_supplied h
  | sinkAnswers answers => exact receiveAnswers_supplied h
  | sinkPresent level => cases h; rfl
  | reset => cases h; rfl

theorem idleStep_next {s t : State} (h : idleStep s = .next t) : t = s := by
  unfold idleStep at h
  split at h <;> cases h
  rfl

/-- Settles O54: `step` takes the first input, and no input changes what the run supplies. -/
theorem stepTakesOneInputAndKeepsParameters : Obligations.StepTakesOneInputAndKeepsParameters := by
  intro s t h
  cases hin : s.inputs with
  | nil =>
    rw [step_of_no_input hin] at h
    obtain rfl := idleStep_next h
    exact ⟨hin, rfl, rfl⟩
  | cons input rest =>
    rw [step_of_input hin] at h
    simpa [State.supplied, Surroundings.supplied, State.surroundings] using takeInput_supplied h

/-- Settles O59: the step takes the input, and each kind of sink input has its own equation. -/
theorem sinkInputsReachTheSinkPort : Obligations.SinkInputsReachTheSinkPort := by
  intro s rest
  refine ⟨fun level hin => step_of_input hin, fun answers hin => ⟨fun hidle => ?_, fun r hrun => ?_⟩⟩
  · exact (step_of_input hin).trans (receiveAnswers_idle answers hidle)
  · exact (step_of_input hin).trans (receiveAnswers_running answers hrun)

end Sys2Proof.Machine
end

section
/-! PROOFS. The ways in which each of the ten commands can end, listed once (43_container R181 to R187, 44_config R220 to R226),
and what follows from the list: the frame of every command, the write set of each register, the sticky flags. -/

namespace Sys2Proof.Machine

/-! ## The commands that talk to the sink -/

/-- The rule for offered operations: all are accepted, or one fails, or one has no answer, and it is only the sink port that
the continuations find changed. -/
theorem offerThen_cases {P : State → Prop} {i : Instr} {s0 s : State} {ops : List SinkOp} {onOk onFail : State → State}
    (h : Underway s0 s) (hOk : ∀ p : SinkPort, Underway s0 { s with sink := p } → P (onOk { s with sink := p }))
    (hFail : ∀ p : SinkPort, P (onFail { s with sink := p })) (hWait : ∀ t, Waits i s0 t → P t) :
    P (offerThen i s0 s ops onOk onFail) := by
  obtain ⟨hsame, recs, hlog, hans⟩ := h
  have hpresent : s.sink.present = s0.sink.present := congrArg Surroundings.present hsame
  rcases sinkOffer_cases ops s.sink with
    ⟨rest, ha, -⟩ | ⟨pre, op, post, rest, rfl, ha, -⟩ | ⟨pre, op, post, rfl, ha, -⟩
  · rw [offerThen_accepted i s0 s ops onOk onFail rest ha]
    exact hOk _ ⟨hsame, okRecords ops ++ recs, by simp [hlog],
      by simp [hans, ha, ← List.append_assoc, List.replicate_append_replicate, Nat.add_comm]⟩
  · rw [offerThen_failed i s0 s pre op post onOk onFail rest ha]
    exact hFail _
  · rw [offerThen_unanswered i s0 s pre op post onOk onFail ha]
    exact hWait _ ⟨okRecords pre ++ recs, by simp [hans, ha, List.replicate_append_replicate, Nat.add_comm],
      by simp [hlog, hpresent]⟩

/-- The state of an ADD_FRAME whose bytes have been offered: steps 1 to 3, then the compressor, have written (R182). -/
def submittedFrame (s : State) (p : SinkPort) : State :=
  { prepareFrame s with lzw := (compressFrame (prepareFrame s)).1, sink := p }

/-- COMPLETE_FRAME writes RESULT, BUSY and, after the first frame, STATE (R184). -/
theorem completeFrame_eq (s : State) :
    completeFrame s = { s with
      lifecycle := if s.lifecycle = .startedFirst then .startedSubseq else s.lifecycle, result := .ok, running := none } := by
  unfold completeFrame
  split <;> rfl

/-- The ways in which a command accepted in `s` can end. -/
inductive Ending (s : State) : Instr → State → Prop where
  | waits {i : Instr} {t : State} (h : Waits i s t) : Ending s i t
  | startWhileStarted (own : Bool) (h : s.started = true) : Ending s (.start own) (raiseCause .precondition s)
  | startWithoutSink (own : Bool) (h : s.started = false) :
      Ending s (.start own) (raiseCause .precondition (clearSticky s))
  | startOpenFails (own : Bool) (h : s.started = false) (p : SinkPort) :
      Ending s (.start own) (raiseCause .sinkError { clearSticky s with sink := p })
  | startSignatureFails (own : Bool) (h : s.started = false) (p : SinkPort) :
      Ending s (.start own) (raiseCause .sinkError { clearSticky s with sink := p, ownSink := own })
  | startDone (own : Bool) (h : s.started = false) (p : SinkPort) :
      Ending s (.start own)
        (finishCmd .ok { clearSticky s with sink := p, ownSink := own, lifecycle := .startedFirst })
  | addFrameNotAllowed (h : addFrameRefused s = true) : Ending s .addFrame (raiseCause .precondition s)
  | addFrameFails (h : addFrameRefused s = false) (p : SinkPort) :
      Ending s .addFrame (raiseCause .sinkError (submittedFrame s p))
  | addFrameDone (h : addFrameRefused s = false) (p : SinkPort) :
      Ending s .addFrame (completeFrame (submittedFrame s p))
  | finishUnstarted (h : s.started = false) : Ending s .finish (raiseCause .precondition s)
  | finishFails (p : SinkPort) :
      Ending s .finish (raiseCause .sinkError (sessionReset { s with lifecycle := .finished, sink := p }))
  | finishDone (p : SinkPort) :
      Ending s .finish (finishCmd .ok (sessionReset { s with lifecycle := .finished, sink := p }))
  | setDelay : Ending s .setDelay (finishCmd .ok { s with delayCs := BitVec.ofNat 16 ((opMs s + 5) / 10) })
  | setRepeat : Ending s .setRepeat (finishCmd .ok { s with repeatCount := clampNegative s.arg0 })
  | setDispose : Ending s .setDispose (finishCmd .ok { s with dispose := clampNegative s.arg0 })
  | setTransparent :
      Ending s .setTransparent (finishCmd .ok { s with transp := { valid := true, colour := opColour s } })
  | clearTransparent :
      Ending s .clearTransparent
        (finishCmd .ok { s with transp := { valid := false, colour := { r := 0#8, g := 0#8, b := 0#8 } } })
  | setSizeIgnored (h : s.lifecycle = .startedSubseq) : Ending s .setSize (finishCmd .ok s)
  | setSize (h : s.lifecycle ≠ .startedSubseq) :
      Ending s .setSize
        (finishCmd .ok { s with
          width := if opW s = 0#16 then Config.defaultWidth else opW s
          height := if opH s = 0#16 then Config.defaultHeight else opH s
          sizeSet := true })
  | setQuality :
      Ending s .setQuality (finishCmd .ok { s with quality := if opSigned s < 1 then 1#32 else s.arg0 })

theorem startSession_ending (own : Bool) {s : State} (h : s.started = false) :
    Ending s (.start own) (startSession own s (clearSticky s)) := by
  refine offerThen_cases (.of_same_sink rfl rfl) (fun p hp => ?_) (.startOpenFails own h) (fun _ => .waits)
  exact offerThen_cases hp (fun p _ => .startDone own h p) (.startSignatureFails own h) (fun _ => .waits)

theorem submitFrame_ending {s : State} (h : addFrameRefused s = false) :
    Ending s .addFrame (submitFrame s (prepareFrame s)) :=
  offerThen_cases (.of_same_sink (prepareFrame_surroundings s) (prepareFrame_sink s))
    (fun p _ => .addFrameDone h p) (.addFrameFails h) (fun _ => .waits)

theorem finishSession_ending (s : State) : Ending s .finish (finishSession s) :=
  offerThen_cases (.of_same_sink rfl rfl) (fun p _ => .finishDone p) .finishFails (fun _ => .waits)

/-! ## All commands -/

/-- The list of endings is complete. -/
theorem exec_ending {i : Instr} {s t : State} (h : exec i s = .next t) : Ending s i t := by
  cases i with
  | start own =>
    rw [exec_start, execStart] at h
    split at h
    next hs => cases h; exact .startWhileStarted own hs
    next hs =>
      have hs : s.started = false := by simpa using hs
      split at h <;> cases h
      · exact .startWithoutSink own hs
      · exact startSession_ending own hs
  | addFrame =>
    rw [exec_addFrame, execAddFrame] at h
    split at h <;> cases h
    next hr => exact .addFrameNotAllowed hr
    next hr => exact submitFrame_ending (by simpa using hr)
  | finish =>
    rw [exec_finish, execFinish] at h
    split at h <;> cases h
    next => exact finishSession_ending s
    next hs => exact .finishUnstarted (by simpa using hs)
  | setSize =>
    rw [exec_setSize, execSetSize] at h
    split at h <;> cases h
    next hl => exact .setSizeIgnored hl
    next hl => exact .setSize hl
  | setDelay => cases h; exact .setDelay
  | setRepeat => cases h; exact .setRepeat
  | setDispose => cases h; exact .setDispose
  | setTransparent => cases h; exact .setTransparent
  | clearTransparent => cases h; exact .clearTransparent
  | setQuality => cases h; exact .setQuality

/-! ## What the host sees of a command -/

/-- Settles O48: ARG0, ARG1, frame memory and the rest are the surroundings, which no command writes. -/
theorem commandsLeaveArgumentsAndFrameMemory : Obligations.CommandsLeaveArgumentsAndFrameMemory := by
  intro i s t h
  have hsame : t.surroundings = s.surroundings := exec_surroundings h
  simp only [State.surroundings, Surroundings.mk.injEq] at hsame
  obtain ⟨harg0, harg1, hmem, hpresent, hinputs, hread, hmax, htable⟩ := hsame
  exact ⟨harg0, harg1, fun a => by rw [hmem], hpresent, hinputs, hread, hmax, htable⟩

/-- Settles O29: a command that still runs waits, and waiting changes the sink port and the running record only. -/
theorem waitingCommandHasWrittenNoRegister : Obligations.WaitingCommandHasWrittenNoRegister := by
  intro i s t _ hexec hbusy
  obtain ⟨recs, hans, rfl⟩ := exec_waits hexec hbusy
  exact ⟨rfl, rfl, rfl, recs.length, by simp, hans⟩

/-- Settles O49, ending by ending: the registers an ending writes are those of its command. -/
theorem registersAreWrittenOnlyByTheirCommands : Obligations.RegistersAreWrittenOnlyByTheirCommands := by
  intro i s t h
  cases exec_ending h with
  | waits hw => obtain ⟨recs, -, rfl⟩ := hw; simp
  | startWhileStarted | startWithoutSink | startOpenFails | startSignatureFails | startDone => simp [writesOwnSink]
  | addFrameNotAllowed => simp
  | addFrameFails | addFrameDone => simp [completeFrame_eq, submittedFrame, writesSize, writesTransIndex]
  | finishUnstarted => simp
  | finishFails | finishDone =>
    simp [writesDelay, writesRepeat, writesDispose, writesTransp, writesSize, writesQuality, writesTransIndex, writesOwnSink]
  | setDelay => simp [writesDelay]
  | setRepeat => simp [writesRepeat]
  | setDispose => simp [writesDispose]
  | setTransparent | clearTransparent => simp [writesTransp]
  | setSizeIgnored => simp
  | setSize => simp [writesSize]
  | setQuality => simp [writesQuality]

/-- Settles O51, ending by ending: only the endings of a START past its state check start from cleared flags, and only a raised
sink error sets SINK_ERR again. -/
theorem stickyFlagsAreClearedOnlyByStart : Obligations.StickyFlagsAreClearedOnlyByStart := by
  intro i s t h hidle
  cases exec_ending h with
  | waits hw => obtain ⟨recs, -, rfl⟩ := hw; simp at hidle
  | startWhileStarted _ hs | startWithoutSink _ hs | startOpenFails _ hs | startSignatureFails _ hs | startDone _ hs =>
    simp [hs, causeCode]
  | addFrameFails | addFrameDone => simp [completeFrame_eq, submittedFrame, causeCode]
  | addFrameNotAllowed | finishUnstarted | finishFails | finishDone => simp [causeCode]
  | setDelay | setRepeat | setDispose | setTransparent | clearTransparent | setSizeIgnored | setSize | setQuality => simp

end Sys2Proof.Machine
end

section
/-! PROOFS. What one host access does: a register read, a write to ARG0 or ARG1, a CMD write of a legal word, and the latched
operands of a running command (10_state R22 to R35). -/

namespace Sys2Proof.Machine

/-! ## Register words as numbers -/

/-- Concatenation puts the upper part above the `m` bits of the lower one. -/
theorem toNat_append_eq_add {n m : Nat} (x : BitVec n) (y : BitVec m) :
    (x ++ y).toNat = x.toNat * 2 ^ m + y.toNat := by
  rw [BitVec.toNat_append, ← Nat.shiftLeft_add_eq_or_of_lt y.isLt, Nat.shiftLeft_eq]

theorem toNat_ofBool_eq_ite (b : Bool) : (BitVec.ofBool b).toNat = if b then 1 else 0 := by
  cases b <;> rfl

theorem busy_eq_true_iff (s : State) : s.busy = true ↔ s.running ≠ none := Option.isSome_iff_ne_none

theorem transpWord_toNat (s : State) :
    (transpWord s).toNat
      = (if s.transp.valid then 16777216 else 0) + 65536 * s.transp.colour.r.toNat
        + 256 * s.transp.colour.g.toNat + s.transp.colour.b.toNat := by
  simp only [transpWord, toNat_append_eq_add, toNat_ofBool_eq_ite, BitVec.toNat_ofNat]
  split <;> omega

theorem sizeWord_toNat (s : State) : (sizeWord s).toNat = s.width.toNat + 65536 * s.height.toNat := by
  rw [sizeWord, toNat_append_eq_add]
  omega

theorem sessionWord_toNat (s : State) :
    (sessionWord s).toNat = (if s.sizeSet then 1 else 0) + (if s.ownSink then 2 else 0) := by
  simp only [sessionWord, toNat_append_eq_add, toNat_ofBool_eq_ite, BitVec.toNat_ofNat]
  split <;> split <;> omega

theorem statusWord_toNat (s : State) :
    (statusWord s).toNat
      = (lifecycleCode s.lifecycle).toNat + (if s.busy then 4 else 0) + 16 * (resultCode s.result).toNat
        + (if s.sinkErr then 256 else 0) + (if s.overrun then 512 else 0) := by
  simp only [statusWord, toNat_append_eq_add, toNat_ofBool_eq_ite, BitVec.toNat_ofNat]
  split <;> split <;> split <;> omega

/-! ## Register reads -/

theorem hostRead_word {offset : Nat} (s : State) (h : offset % 4 = 0) :
    hostRead 4 offset s = .next { s with readData := readOffset offset s } := by
  simp [hostRead, accessLegal, h]

/-- What is read at each offset: the register there, assembled from its fields, and 0 above the last (10_state R22, R35). -/
theorem readOffset_eq (offset : Nat) (s : State) :
    readOffset offset s
      = if offset = 0x00 then 0#32
        else if offset = 0x04 then s.arg0
        else if offset = 0x08 then s.arg1
        else if offset = 0x0C then statusWord s
        else if offset = 0x10 then delayWord s
        else if offset = 0x14 then s.repeatCount
        else if offset = 0x18 then s.dispose
        else if offset = 0x1C then transpWord s
        else if offset = 0x20 then sizeWord s
        else if offset = 0x24 then s.quality
        else if offset = 0x28 then transIndexWord s
        else if offset = 0x2C then sessionWord s
        else 0#32 := by
  unfold readOffset hostRegAt
  split
  next r h => split at h <;> cases h <;> rfl
  next h => split at h <;> simp_all

/-- A word whose number is `n` is the word of `n`. -/
theorem ofNat_eq_of_toNat_eq {w : Word} {n : Nat} (h : w.toNat = n) : w = BitVec.ofNat 32 n := by
  rw [← h, BitVec.ofNat_toNat, BitVec.setWidth_eq]

theorem delayWord_toNat (s : State) : (delayWord s).toNat = s.delayCs.toNat := by
  rw [delayWord, toNat_append_eq_add]
  simp

theorem transIndexWord_toNat (s : State) : (transIndexWord s).toNat = s.transIndex.toNat := by
  rw [transIndexWord, toNat_append_eq_add]
  simp

/-- Settles O8, register by register: each word is the sum of its fields at their bit positions. -/
theorem registerReadsReturnTheirFields : Obligations.RegisterReadsReturnTheirFields := by
  intro s offset rest hin hal
  rw [step_of_input hin, takeInput, hostRead_word _ hal]
  congr 2
  refine ofNat_eq_of_toNat_eq ?_
  rw [readOffset_eq]
  by_cases hstatus : offset = 0x0C
  · subst hstatus
    simp only [Nat.reduceEqDiff, if_false, if_true, statusWord_toNat, busy_eq_true_iff, ite_not]
    cases s.lifecycle <;> cases s.result <;> rfl
  · simp only [hstatus, if_false, apply_ite BitVec.toNat, delayWord_toNat, transpWord_toNat, sizeWord_toNat,
      transIndexWord_toNat, sessionWord_toNat, BitVec.toNat_ofNat, Nat.zero_mod]

/-! ## Register writes -/

/-- No offset but its own selects CMD, ARG0 or ARG1. -/
theorem hostRegAt_other {offset : Nat} (h0 : offset ≠ 0x00) (h4 : offset ≠ 0x04) (h8 : offset ≠ 0x08) :
    hostRegAt offset ≠ some .cmd ∧ hostRegAt offset ≠ some .arg0 ∧ hostRegAt offset ≠ some .arg1 := by
  unfold hostRegAt
  split <;> simp_all

/-- A legal write off CMD's offset is a write to one of the two arguments or to neither. -/
theorem hostWrite_off_cmd {offset : Nat} (v : Word) (s : State) (hal : offset % 4 = 0) (h0 : offset ≠ 0x00) :
    hostWrite 4 offset v s
      = .next { s with
          arg0 := if offset = 0x04 then v else s.arg0
          arg1 := if offset = 0x08 then v else s.arg1 } := by
  by_cases h4 : offset = 0x04
  · subst h4; rfl
  · by_cases h8 : offset = 0x08
    · subst h8; rfl
    · obtain ⟨hcmd, harg0, harg1⟩ := hostRegAt_other h0 h4 h8
      simp [hostWrite, accessLegal, hal, h4, h8]

/-- Settles O9: the step takes the write, which is not CMD's. -/
theorem hostWritesReachOnlyTheArguments : Obligations.HostWritesReachOnlyTheArguments := by
  intro s offset v rest hin hal hcmd
  rw [step_of_input hin, takeInput, hostWrite_off_cmd _ _ hal hcmd]

/-- An idle block runs the command of a legal word. -/
theorem issueCommand_decoded {s : State} {w : Word} {i : Instr} (hidle : s.running = none) (hw : decode w = .ok i) :
    issueCommand w s = exec i s := by
  simp [issueCommand, hidle, hw]

/-- A write to CMD's offset issues its word. -/
theorem hostWrite_cmd (w : Word) (s : State) : hostWrite 4 0x00 w s = issueCommand w s := rfl

/-- Settles O6: the CMD write issues the word, which decodes, on an idle block. -/
theorem stepRunsTheDecodedCommand : Obligations.StepRunsTheDecodedCommand := by
  refine ⟨fun s w i rest hidle hin hw => ?_, fun s w i hw => ?_⟩
  · rw [step_of_input hin, takeInput, hostWrite_cmd, issueCommand_decoded (by exact hidle) hw]
  · have hfetch : BitVec.ofNat 32 (w.toNat % 2 ^ 32) = w := by
      rw [Nat.mod_eq_of_lt w.isLt, BitVec.ofNat_toNat, BitVec.setWidth_eq]
    rw [step_withFetchWord, hfetch, hostWrite_cmd, issueCommand_decoded rfl hw]

/-! ## The latched operands -/

/-- Settles O31: going on starts from the latched operands, and the host's ARG0 and ARG1 are only put back. -/
theorem argumentsAreLatched : Obligations.ArgumentsAreLatched := by
  intro s t r v0 v1 h
  obtain ⟨u, hu, hresume⟩ := resumeCommand_eq r s
  obtain rfl : restoreMeanwhile r s u = t := by simpa [hresume] using h
  have hsame : acceptedState r { s with arg0 := v0, arg1 := v1 } = acceptedState r s := rfl
  rw [resumeCommand, hsame, hu]
  rfl

/-! ## Power-on -/

/-- Settles O14: the fields of the reset state, and the words assembled from them. -/
theorem powerOnStateHoldsTheStatedValues : Obligations.PowerOnStateHoldsTheStatedValues :=
  ⟨rfl, rfl, rfl, rfl, rfl, rfl, rfl, rfl, rfl, rfl, rfl, rfl, rfl, rfl, rfl, rfl, rfl⟩

end Sys2Proof.Machine
end

section
/-! PROOFS. The LZW unit stays within its widths and sizes while it compresses a frame with 8-bit indices (10_state R39 to R42,
42_lzw R140 to R157). -/

namespace Sys2Proof.Machine

/-! ## The bit accumulator and the sub-block buffer (R152, R153, R155) -/

/-- Between two codes the accumulator holds less than a byte and the sub-block is not full. -/
structure LzwUnit.BufferFits (u : LzwUnit) : Prop where
  acc : u.acc < 2 ^ 19
  accBits : u.accBits < 8
  sbCount : u.sbBuf.length < 254

theorem packCode_acc_lt {code : Nat} {u : LzwUnit} (hcode : code < 2 ^ 12) (h : u.accBits < 8) :
    (packCode code u).acc < 2 ^ 19 := by
  have hlow : u.acc &&& (2 ^ u.accBits - 1) < 2 ^ 19 := by
    have hpos : 0 < 2 ^ u.accBits := Nat.two_pow_pos _
    have hle : 2 ^ u.accBits ≤ 2 ^ 19 := Nat.pow_le_pow_right (by decide) (by omega)
    have hand : u.acc &&& (2 ^ u.accBits - 1) ≤ 2 ^ u.accBits - 1 := Nat.and_le_right
    omega
  have hhigh : code <<< u.accBits < 2 ^ 19 := by
    calc code <<< u.accBits = code * 2 ^ u.accBits := Nat.shiftLeft_eq ..
      _ < 2 ^ 12 * 2 ^ u.accBits := Nat.mul_lt_mul_of_pos_right hcode (Nat.two_pow_pos _)
      _ = 2 ^ (12 + u.accBits) := (Nat.pow_add ..).symm
      _ ≤ 2 ^ 19 := Nat.pow_le_pow_right (by decide) (by omega)
  exact Nat.or_lt_two_pow hlow hhigh

theorem drainBytes_sbCount_lt (k : Nat) {u : LzwUnit} (h : u.sbBuf.length < 254) :
    (drainBytes k u).1.sbBuf.length < 254 := by
  induction k generalizing u with
  | zero => exact h
  | succ k ih => exact ih (charOut_short _ u)

/-- Enough rounds of draining leave less than a byte. -/
theorem drainBytes_bufferFits {k : Nat} {u : LzwUnit} (hacc : u.acc < 2 ^ 19) (hk : u.accBits < 8 * k + 8)
    (hsb : u.sbBuf.length < 254) : (drainBytes k u).1.BufferFits where
  acc := by
    rw [drainBytes_eq]
    exact (Nat.shiftRight_le ..).trans_lt hacc
  accBits := by
    rw [drainBytes_eq]
    dsimp only
    omega
  sbCount := drainBytes_sbCount_lt k hsb

theorem drainWhole_packCode_bufferFits {code : Nat} {u : LzwUnit} (hcode : code < 2 ^ 12) (h : u.BufferFits) :
    (drainWhole (packCode code u)).1.BufferFits :=
  drainBytes_bufferFits (packCode_acc_lt hcode h.accBits) (by omega) h.sbCount

theorem finalFlush_bufferFits {u : LzwUnit} (h : u.BufferFits) : (finalFlush u).1.BufferFits := by
  have hdrained := drainBytes_bufferFits (k := (u.accBits + 7) / 8) h.acc (by omega) h.sbCount
  rw [finalFlush]
  dsimp only
  rw [flushChar_eq]
  exact ⟨hdrained.acc, hdrained.accBits, by simp⟩

/-! ## The code width (R142, R154) -/

/-- The width is at most 12 and the largest code is the one of the width, 4096 at 12 bits. -/
structure LzwUnit.WidthFits (u : LzwUnit) : Prop where
  nbits : u.nbits ≤ 12
  maxcode : u.maxcode = if u.nbits = 12 then 4096 else 2 ^ u.nbits - 1

theorem LzwUnit.WidthFits.maxcode_le {u : LzwUnit} (h : u.WidthFits) : u.maxcode ≤ 4096 := by
  rw [h.maxcode]
  split
  · exact Nat.le_refl _
  · have hpow : 2 ^ u.nbits ≤ 2 ^ 12 := Nat.pow_le_pow_right (by decide) h.nbits
    omega

/-- A width of 12 is the last: its largest code, 4096, is never exceeded. -/
theorem updateWidth_widthFits {u : LzwUnit} (h : u.WidthFits) (hinit : u.initBits = 9) (hfree : u.free ≤ 4096) :
    (updateWidth u).WidthFits := by
  have hmax := h.maxcode
  unfold updateWidth
  split
  next hgrow =>
    split
    · exact ⟨by simp [hinit], by simp [hinit, maxCode]⟩
    next hclear =>
      have hnot12 : u.nbits ≠ 12 := by
        intro h12
        rw [if_pos h12] at hmax
        exact hgrow.elim (by omega) hclear
      have hnbits := h.nbits
      exact ⟨by dsimp only; omega, rfl⟩
  next => exact h

/-! ## The dictionary (R146, R147, R149) -/

/-- The codes' layout of 8-bit indices, the next code, the current string and both tables are in their ranges. -/
structure LzwUnit.CodesFit (u : LzwUnit) : Prop where
  initBits : u.initBits = 9
  clear : u.clear = 256
  eoi : u.eoi = 257
  free : u.free ≤ 4096
  ent : u.ent < 2 ^ 12
  htabWf : cellsWf u.htab
  htabFits : ∀ c ∈ u.htab, c.1 < 5003 ∧ c.2 < 2 ^ 20
  codetabWf : cellsWf u.codetab
  codetabFits : ∀ c ∈ u.codetab, c.1 < 5003 ∧ c.2 < 2 ^ 12

theorem LzwUnit.SameCodes.codesFit {t u : LzwUnit} (h : t.SameCodes u) (hu : u.CodesFit) : t.CodesFit where
  initBits := h.initBits ▸ hu.initBits
  clear := h.clear ▸ hu.clear
  eoi := h.eoi ▸ hu.eoi
  free := h.free ▸ hu.free
  ent := h.ent ▸ hu.ent
  htabWf := h.htab ▸ hu.htabWf
  htabFits := h.htab ▸ hu.htabFits
  codetabWf := h.codetab ▸ hu.codetabWf
  codetabFits := h.codetab ▸ hu.codetabFits

/-- What a sparse memory answers is listed in it. -/
theorem mem_of_cellsGet {α : Type} {m : List (Nat × α)} {a : Nat} {v : α} (h : cellsGet m a = some v) : (a, v) ∈ m := by
  induction m with
  | nil => cases h
  | cons c m ih =>
    obtain ⟨k, w⟩ := c
    rw [cellsGet_cons] at h
    split at h
    next hk => cases hk; cases h; exact List.mem_cons_self
    next => exact List.mem_cons_of_mem _ (ih h)

theorem codeAt_lt {u : LzwUnit} (h : u.CodesFit) (i : Nat) : codeAt u i < 2 ^ 12 := by
  unfold codeAt
  cases hget : cellsGet u.codetab i with
  | none => simp
  | some code => exact (h.codetabFits _ (mem_of_cellsGet hget)).2

/-- What a lookup answers is in range: the code of a hit has 12 bits, the slot of a miss is in the table. -/
def Lookup.InRange : Lookup → Prop
  | .hit _ code => code < 2 ^ 12
  | .miss slot => slot < 5003

theorem secondaryProbe_inRange {u : LzwUnit} (h : u.CodesFit) {key disp : Nat} (h1 : 1 ≤ disp) (h2 : disp ≤ 5003)
    (fuel : Nat) {i : Nat} (hi : i < 5003) : (secondaryProbe u key disp fuel i).InRange := by
  induction fuel generalizing i with
  | zero => exact hi
  | succ fuel ih =>
    have hnext := nextSlot_lt hi h1 h2
    rw [secondaryProbe]
    split
    · exact hnext
    · split
      · exact codeAt_lt h _
      · exact ih hnext

theorem probeStep_bounds {i : Nat} (hi : i < 5003) : 1 ≤ probeStep i ∧ probeStep i ≤ 5003 := by
  unfold probeStep Config.hsize
  split <;> omega

theorem lookupPair_inRange {u : LzwUnit} (h : u.CodesFit) {c : Nat} (hc : c < 256) : (lookupPair u c).InRange := by
  have hslot : primarySlot u.ent c < 5003 := (primarySlot_lt h.ent hc).trans (by decide)
  obtain ⟨h1, h2⟩ := probeStep_bounds hslot
  rw [lookupPair]
  split
  · exact hslot
  · split
    · exact codeAt_lt h _
    · exact secondaryProbe_inRange h h1 h2 _ hslot

theorem pairKey_lt {ent c : Nat} (he : ent < 2 ^ 12) (hc : c < 256) : pairKey ent c < 2 ^ 20 := by
  rw [pairKey, Nat.shiftLeft_eq]
  omega

/-- A pair is inserted at a slot of the table while a code is free. -/
theorem insertPair_codesFit {u : LzwUnit} (h : u.CodesFit) {i key : Nat} (hi : i < 5003) (hkey : key < 2 ^ 20)
    (hfree : u.free < 4096) : (insertPair i key u).CodesFit where
  initBits := h.initBits
  clear := h.clear
  eoi := h.eoi
  free := hfree
  ent := h.ent
  htabWf := cellsPut_wf i key h.htabWf
  htabFits c hc := by
    rcases mem_cellsPut hc with rfl | hc
    · exact ⟨hi, hkey⟩
    · exact h.htabFits c hc
  codetabWf := cellsPut_wf i u.free h.codetabWf
  codetabFits c hc := by
    rcases mem_cellsPut hc with rfl | hc
    · exact ⟨hi, hfree⟩
    · exact h.codetabFits c hc

/-! ## Codes, pixels, the whole frame -/

/-- The unit is within its widths between two codes of a frame. -/
structure LzwUnit.InFrame (u : LzwUnit) : Prop where
  codes : u.CodesFit
  width : u.WidthFits
  buffer : u.BufferFits

theorem drainWhole_widthFits {u : LzwUnit} (h : u.WidthFits) : (drainWhole u).1.WidthFits := by
  rw [drainWhole, drainBytes_eq]
  exact ⟨h.nbits, h.maxcode⟩

theorem finalFlush_widthFits {u : LzwUnit} (h : u.WidthFits) : (finalFlush u).1.WidthFits := by
  rw [finalFlush]
  dsimp only
  rw [flushChar_eq, drainBytes_eq]
  exact ⟨h.nbits, h.maxcode⟩

theorem updateWidth_bufferFits {u : LzwUnit} (h : u.BufferFits) : (updateWidth u).BufferFits := by
  rcases updateWidth_eq u with hu | hu <;> rw [hu]
  · exact ⟨h.acc, h.accBits, h.sbCount⟩
  · exact h

theorem outputCode_inFrame {code : Nat} {u : LzwUnit} (hcode : code < 2 ^ 12) (h : u.InFrame) :
    (outputCode code u).1.InFrame := by
  have hsame : (drainWhole (packCode code u)).1.SameCodes u :=
    (drainBytes_sameCodes _ _).trans (packCode_sameCodes code u)
  have hcodes := hsame.codesFit h.codes
  have hwidth : (updateWidth (drainWhole (packCode code u)).1).WidthFits :=
    updateWidth_widthFits (drainWhole_widthFits ⟨h.width.nbits, h.width.maxcode⟩) hcodes.initBits hcodes.free
  have hbuffer : (updateWidth (drainWhole (packCode code u)).1).BufferFits :=
    updateWidth_bufferFits (drainWhole_packCode_bufferFits hcode h.buffer)
  refine ⟨(outputCode_sameCodes code u).codesFit h.codes, ?_, ?_⟩
  · unfold outputCode
    dsimp only
    split
    · exact finalFlush_widthFits hwidth
    · exact hwidth
  · unfold outputCode
    dsimp only
    split
    · exact finalFlush_bufferFits hbuffer
    · exact hbuffer

/-- A new current string of 12 bits. -/
theorem LzwUnit.InFrame.withEnt {u : LzwUnit} (h : u.InFrame) {e : Nat} (he : e < 2 ^ 12) :
    ({ u with ent := e } : LzwUnit).InFrame :=
  ⟨{ h.codes with ent := he }, ⟨h.width.nbits, h.width.maxcode⟩, ⟨h.buffer.acc, h.buffer.accBits, h.buffer.sbCount⟩⟩

theorem LzwUnit.InFrame.withCurPix {u : LzwUnit} (h : u.InFrame) (k : Nat) :
    ({ u with curPix := k } : LzwUnit).InFrame :=
  ⟨{ h.codes with }, ⟨h.width.nbits, h.width.maxcode⟩, ⟨h.buffer.acc, h.buffer.accBits, h.buffer.sbCount⟩⟩

theorem insertPair_inFrame {u : LzwUnit} (h : u.InFrame) {i key : Nat} (hi : i < 5003) (hkey : key < 2 ^ 20)
    (hfree : u.free < 4096) : (insertPair i key u).InFrame :=
  ⟨insertPair_codesFit h.codes hi hkey hfree, ⟨h.width.nbits, h.width.maxcode⟩,
    ⟨h.buffer.acc, h.buffer.accBits, h.buffer.sbCount⟩⟩

/-- The reset of the table starts over at the first free code, 258. -/
theorem clearBlock_inFrame {u : LzwUnit} (h : u.InFrame) : (clearBlock u).1.InFrame := by
  have hclear := h.codes.clear
  refine outputCode_inFrame (by omega) ⟨?_, ⟨h.width.nbits, h.width.maxcode⟩,
    ⟨h.buffer.acc, h.buffer.accBits, h.buffer.sbCount⟩⟩
  exact { h.codes with free := by dsimp only; omega, htabWf := .nil, htabFits := by simp }

theorem missPair_inFrame {u : LzwUnit} (h : u.InFrame) {i c : Nat} (hi : i < 5003) (hc : c < 256) :
    (missPair i c u).1.InFrame := by
  have hnext := (outputCode_inFrame h.codes.ent h).withEnt (e := c) (by omega)
  rw [missPair]
  dsimp only
  split
  next hfree => exact insertPair_inFrame hnext hi (pairKey_lt h.codes.ent hc) hfree
  next => exact clearBlock_inFrame hnext

theorem compressPixel_inFrame {u : LzwUnit} (h : u.InFrame) {c : Nat} (hc : c < 256) : (compressPixel c u).1.InFrame := by
  have hrange := lookupPair_inRange h.codes hc
  rw [compressPixel]
  split
  next hhit => rw [hhit] at hrange; exact h.withEnt hrange
  next hmiss => rw [hmiss] at hrange; exact missPair_inFrame h hrange hc

theorem compressPixels_inFrame (pixels : List Byte) {u : LzwUnit} (h : u.InFrame) :
    (compressPixels pixels u).1.InFrame := by
  induction pixels generalizing u with
  | nil => exact h
  | cons c rest ih => exact ih (compressPixel_inFrame (h.withCurPix _) c.isLt)

theorem compressEnd_inFrame {u : LzwUnit} (h : u.InFrame) : (compressEnd u).1.InFrame := by
  have hlast := outputCode_inFrame h.codes.ent h
  exact outputCode_inFrame (by rw [hlast.codes.eoi]; decide) hlast

theorem lzwInit_inFrame {u : LzwUnit} (h : u.Fits) (n : Nat) : (lzwInit 9 n u).InFrame where
  codes :=
    { initBits := rfl, clear := rfl, eoi := rfl, free := by simp [lzwInit], ent := h.ent, htabWf := .nil,
      htabFits := by simp [lzwInit], codetabWf := h.codetabWf, codetabFits := h.codetabFits }
  width := ⟨by simp [lzwInit], by simp [lzwInit, maxCode]⟩
  buffer := ⟨by simp [lzwInit], by simp [lzwInit], by simp [lzwInit]⟩

/-! ## The pixel counter (R141, R145) -/

/-- The frame's pixel count, and how many pixels NextPixel has returned. -/
def LzwUnit.progress (u : LzwUnit) : Nat × Nat := (u.n, u.curPix)

theorem outputCode_progress (code : Nat) (u : LzwUnit) : (outputCode code u).1.progress = u.progress :=
  Prod.ext (outputCode_sameCodes code u).n (outputCode_sameCodes code u).curPix

theorem missPair_progress (i c : Nat) (u : LzwUnit) : (missPair i c u).1.progress = u.progress := by
  rw [missPair]
  dsimp only
  split
  · exact outputCode_progress u.ent u
  · exact (outputCode_progress _ _).trans (outputCode_progress u.ent u)

theorem compressPixel_progress (c : Nat) (u : LzwUnit) : (compressPixel c u).1.progress = u.progress := by
  rw [compressPixel]
  split
  · rfl
  · exact missPair_progress _ c u

/-- Every pixel counts once. -/
theorem compressPixels_progress (pixels : List Byte) (u : LzwUnit) :
    (compressPixels pixels u).1.progress = (u.n, u.curPix + pixels.length) := by
  induction pixels generalizing u with
  | nil => rfl
  | cons c rest ih =>
    have hpixel := compressPixel_progress c.toNat { u with curPix := u.curPix + 1 }
    simp only [LzwUnit.progress, Prod.mk.injEq] at hpixel
    obtain ⟨hn, hcur⟩ := hpixel
    refine (ih _).trans ?_
    rw [hn, hcur, List.length_cons, Nat.add_assoc, Nat.add_comm 1]

theorem compressEnd_progress (u : LzwUnit) : (compressEnd u).1.progress = u.progress :=
  (outputCode_progress _ _).trans (outputCode_progress u.ent u)

/-- After a frame the counter stands at the number of its pixels. -/
theorem lzwCompress_progress (initBits : Nat) (indices : List Byte) (u : LzwUnit) :
    (lzwCompress initBits indices u).1.progress = (indices.length, indices.length) := by
  cases indices with
  | nil => rfl
  | cons first rest =>
    refine (compressEnd_progress _).trans ((compressPixels_progress rest _).trans ?_)
    rw [(outputCode_sameCodes _ _).n, (outputCode_sameCodes _ _).curPix, Nat.add_comm]
    rfl

theorem lzwCompress_inFrame (indices : List Byte) {u : LzwUnit} (h : u.Fits) :
    (lzwCompress 9 indices u).1.InFrame := by
  have hinit := lzwInit_inFrame h indices.length
  cases indices with
  | nil => exact hinit
  | cons first rest =>
    have hfirst := (hinit.withEnt (e := first.toNat) (first.isLt.trans (by decide))).withCurPix 1
    exact compressEnd_inFrame (compressPixels_inFrame rest (outputCode_inFrame (by rw [hinit.codes.clear]; decide) hfirst))

/-- A frame leaves the unit within its widths. -/
theorem lzwEncode_fits (indices : List Byte) {u : LzwUnit} (h : u.Fits) (hlen : indices.length < 2 ^ 32) :
    (lzwEncode 8 indices u).1.Fits ∧ (lzwEncode 8 indices u).1.n = indices.length := by
  have hunit : (lzwEncode 8 indices u).1.InFrame := lzwCompress_inFrame indices h
  have hprogress : (lzwEncode 8 indices u).1.progress = (indices.length, indices.length) := lzwCompress_progress _ indices u
  simp only [LzwUnit.progress, Prod.mk.injEq] at hprogress
  obtain ⟨hn, hcur⟩ := hprogress
  obtain ⟨codes, width, buffer⟩ := hunit
  have hbits := buffer.accBits
  refine ⟨?_, hn⟩
  exact
    { initBits := codes.initBits.le, nbits := width.nbits, maxcode := width.maxcode_le, clear := codes.clear.le
      eoi := codes.eoi.le, free := codes.free, ent := codes.ent, acc := buffer.acc, accBits := by omega
      sbCount := buffer.sbCount.le, pixels := hn ▸ hlen, curPix := by rw [hn, hcur], htabWf := codes.htabWf
      htabFits := codes.htabFits, codetabWf := codes.codetabWf, codetabFits := codes.codetabFits }

end Sys2Proof.Machine
end

section
/-! PROOFS. What a step can do to the block: run a command, store a byte of frame memory, take the reset, or leave all but the
host's side of it alone; and with it that the internal registers and memories keep to their widths and sizes (10_state R21, R38
to R42). -/

namespace Sys2Proof.Machine

/-! ## What a step can do -/

/-- `t` differs from `s` on the host's side only: STATE, the configuration, the internal memories, frame memory and the
parameters are the same. -/
def SameBlock (s t : State) : Prop :=
  t = { s with
    arg0 := t.arg0, arg1 := t.arg1, result := t.result, sinkErr := t.sinkErr, overrun := t.overrun, running := t.running
    sink := t.sink, inputs := t.inputs, readData := t.readData }

/-- A predicate on what the host's side does not reach, kept by the commands, the frame producer and the reset. -/
structure BlockInvariant (P : State → Prop) : Prop where
  same : ∀ {s t}, SameBlock s t → P s → P t
  exec : ∀ {i s t}, exec i s = .next t → P s → P t
  store : ∀ {s a v}, a < frameBytesCapacity s → P s → P (frameStore a v s)
  reset : ∀ {s}, P s → P (resetBlock s)

section
variable {P : State → Prop} (hP : BlockInvariant P) {s t : State}
include hP

theorem BlockInvariant.issueCommand {w : Word} (h : issueCommand w s = .next t) (hs : P s) : P t := by
  unfold Machine.issueCommand at h
  split at h
  · cases h; exact hP.same rfl hs
  · split at h
    · exact hP.exec h hs
    · cases h; exact hP.same (s := s) rfl hs

theorem BlockInvariant.hostWrite {size offset : Nat} {v : Word} (h : hostWrite size offset v s = .next t) (hs : P s) :
    P t := by
  unfold Machine.hostWrite at h
  split at h
  · split at h
    · exact hP.issueCommand h hs
    all_goals (cases h; exact hP.same rfl hs)
  · cases h

theorem BlockInvariant.hostRead {size offset : Nat} (h : hostRead size offset s = .next t) (hs : P s) : P t := by
  unfold Machine.hostRead at h
  split at h <;> cases h
  exact hP.same rfl hs

theorem BlockInvariant.producerWrite {a : Nat} {v : Byte} (h : producerWrite a v s = .next t) (hs : P s) : P t := by
  unfold Machine.producerWrite at h
  split at h
  · cases h
  next hinside =>
    split at h <;> cases h
    exact hP.store (Nat.lt_of_not_le hinside) hs

/-- The acceptance of a running command, and what is put back after it, are on the host's side. -/
theorem BlockInvariant.resumeCommand {r : Running} (h : resumeCommand r s = .next t) (hs : P s) : P t := by
  obtain ⟨u, hu, hresume⟩ := resumeCommand_eq r s
  obtain rfl : restoreMeanwhile r s u = t := by simpa [hresume] using h
  have haccepted : P (acceptedState r s) := hP.same rfl hs
  exact hP.same rfl (hP.exec hu haccepted)

theorem BlockInvariant.receiveAnswers {answers : List SinkAnswer} (h : receiveAnswers answers s = .next t) (hs : P s) :
    P t := by
  cases hrun : s.running with
  | none => rw [receiveAnswers_idle answers hrun] at h; cases h; exact hP.same rfl hs
  | some r =>
    have hqueued : P (s.addAnswers answers) := hP.same rfl hs
    rw [receiveAnswers_running answers hrun] at h
    exact hP.resumeCommand h hqueued

theorem BlockInvariant.takeInput {input : HostInput} (h : takeInput input s = .next t) (hs : P s) : P t := by
  cases input with
  | regWrite size offset value => exact hP.hostWrite h hs
  | regRead size offset => exact hP.hostRead h hs
  | frameWrite offset value => exact hP.producerWrite h hs
  | sinkAnswers answers => exact hP.receiveAnswers h hs
  | sinkPresent level => cases h; exact hP.same rfl hs
  | reset => cases h; exact hP.reset hs

/-- Every step keeps it. -/
theorem BlockInvariant.step (h : step s = .next t) (hs : P s) : P t := by
  cases hin : s.inputs with
  | nil => rw [step_of_no_input hin] at h; exact idleStep_next h ▸ hs
  | cons input rest =>
    have htaken : P { s with inputs := rest } := hP.same rfl hs
    rw [step_of_input hin] at h
    exact hP.takeInput h htaken

end

/-! ## The PaletteIndexer's memories (10_state R38) -/

theorem reformat_length (m : Memory) (fw fh w h : Nat) : (reformat m fw fh w h).length = w * h := by
  simp [reformat, Nat.mul_comm]

/-- A frame that is not refused has the session's size, which MAX_PIXELS holds. -/
theorem sessionPixels_le {s : State} (h : addFrameRefused s = false) : sessionPixels s ≤ s.maxPixels := by
  simp only [addFrameRefused, Bool.or_eq_false_iff, decide_eq_false_iff_not] at h
  exact Nat.le_of_not_lt h.2

theorem prepareFrame_pixels (s : State) :
    (prepareFrame s).width.toNat * (prepareFrame s).height.toNat = sessionPixels s := by
  rw [prepareFrame_width, prepareFrame_height, sessionPixels]
  split <;> rfl

theorem prepareFrame_pix_length (s : State) : (prepareFrame s).frame.pix.length = sessionPixels s := by
  rw [prepareFrame_frame, indexFrame, ← prepareFrame_pixels, prepareFrame_width, prepareFrame_height,
    ← adoptSize_width, ← adoptSize_height]
  exact reformat_length ..

theorem prepareFrame_frame_fits {s : State} (h : addFrameRefused s = false) :
    (prepareFrame s).frame.Fits s.maxPixels where
  palLen := by rw [prepareFrame_frame]; rfl
  palFits := by
    rw [prepareFrame_frame]
    exact List.length_take_le ..
  indexed := by
    rw [prepareFrame_frame]
    exact List.length_map _
  pixels := by
    rw [prepareFrame_pix_length, ← prepareFrame_pixels]
    calc (prepareFrame s).width.toNat * (prepareFrame s).height.toNat
      _ < 2 ^ 16 * 2 ^ 16 := Nat.mul_lt_mul'' (prepareFrame s).width.isLt (prepareFrame s).height.isLt
      _ = 2 ^ 32 := by decide
  capacity := by
    rw [prepareFrame_pix_length]
    exact sessionPixels_le h

/-! ## The internal widths -/

/-- A frame that is not refused leaves the internal memories within their widths and sizes. -/
theorem submittedFrame_internalsFit {s : State} (hs : s.InternalsFit) (h : addFrameRefused s = false) (p : SinkPort) :
    (submittedFrame s p).InternalsFit := by
  have hframe := prepareFrame_frame_fits h
  have hlen := hframe.indexed
  obtain ⟨hlzw, hn⟩ := lzwEncode_fits (prepareFrame s).frame.indexBuf
    (u := (prepareFrame s).lzw) (by rw [prepareFrame_lzw]; exact hs.lzw) (hlen ▸ hframe.pixels)
  refine ⟨?_, hlzw, ?_⟩
  · exact (prepareFrame_maxPixels s).symm ▸ hframe
  · show (lzwEncode 8 (prepareFrame s).frame.indexBuf (prepareFrame s).lzw).1.n ≤ (prepareFrame s).maxPixels
    rw [hn, hlen, prepareFrame_maxPixels]
    exact hframe.capacity

/-- Of all the endings of a command, only those of an accepted ADD_FRAME write the internal memories. -/
theorem exec_internalsFit {i : Instr} {s t : State} (h : exec i s = .next t) (hs : s.InternalsFit) : t.InternalsFit := by
  cases exec_ending h with
  | waits hw => obtain ⟨recs, -, rfl⟩ := hw; exact ⟨hs.frame, hs.lzw, hs.pixels⟩
  | addFrameFails hr p =>
    have hframe := submittedFrame_internalsFit hs hr p
    exact ⟨hframe.frame, hframe.lzw, hframe.pixels⟩
  | addFrameDone hr p =>
    have hframe := submittedFrame_internalsFit hs hr p
    rw [completeFrame_eq]
    exact ⟨hframe.frame, hframe.lzw, hframe.pixels⟩
  | startWhileStarted | startWithoutSink | startOpenFails | startSignatureFails | startDone | addFrameNotAllowed
  | finishUnstarted | finishFails | finishDone | setDelay | setRepeat | setDispose | setTransparent | clearTransparent
  | setSizeIgnored | setSize | setQuality => exact ⟨hs.frame, hs.lzw, hs.pixels⟩

/-- The internal memories that the reset leaves fit a block of any capacity. -/
theorem internalsFit_of_reset {s : State} (hframe : s.frame = FrameUnit.reset) (hlzw : s.lzw = LzwUnit.reset) :
    s.InternalsFit where
  frame := by rw [hframe]; constructor <;> simp [FrameUnit.reset]
  lzw := by rw [hlzw]; constructor <;> simp [LzwUnit.reset, LzwUnit.sbCount]
  pixels := by rw [hlzw]; exact Nat.zero_le _

theorem internalsFit_blockInvariant : BlockInvariant State.InternalsFit where
  same h hs := by rw [h]; exact ⟨hs.frame, hs.lzw, hs.pixels⟩
  exec := exec_internalsFit
  store _ hs := ⟨hs.frame, hs.lzw, hs.pixels⟩
  reset _ := internalsFit_of_reset rfl rfl

/-- Settles O57: the internal widths are kept by every command and by the reset, and no other input reaches them. -/
theorem stepKeepsInternalWidths : Obligations.StepKeepsInternalWidths :=
  fun _ _ hs h => internalsFit_blockInvariant.step h hs

/-- Settles O58: the reset state's internal memories are those of the reset. -/
theorem resetInternalsFit : Obligations.ResetInternalsFit := internalsFit_of_reset rfl rfl

end Sys2Proof.Machine
end

section
/-! PROOFS. Every step keeps the invariant of frame memory and the configuration registers (10_state R28 to R32, 20_memory R60,
43_container R182). -/

namespace Sys2Proof.Machine

/-! ## Frame memory (20_memory R60, R61) -/

/-- Frame memory is canonical and inside its capacity. -/
structure State.MemoryLegal (s : State) : Prop where
  memoryWf : Memory.wf s.frameMem
  memoryInside : ∀ c ∈ s.frameMem, c.1 < frameBytesCapacity s
  capacity : 1 ≤ s.maxPixels

theorem exec_memoryLegal {i : Instr} {s t : State} (h : exec i s = .next t) (hs : s.MemoryLegal) : t.MemoryLegal := by
  have hsame := exec_surroundings h
  have hmem : t.frameMem = s.frameMem := congrArg Surroundings.frameMem hsame
  have hmax : t.maxPixels = s.maxPixels := congrArg Surroundings.maxPixels hsame
  refine ⟨hmem ▸ hs.memoryWf, ?_, hmax ▸ hs.capacity⟩
  rw [hmem, frameBytesCapacity, hmax]
  exact hs.memoryInside

theorem memoryLegal_blockInvariant : BlockInvariant State.MemoryLegal where
  same h hs := by rw [h]; exact { hs with }
  exec := exec_memoryLegal
  store ha hs :=
    { memoryWf := cellsPut_wf _ _ hs.memoryWf
      memoryInside := fun c hc => (mem_cellsPut hc).elim (fun h => h ▸ ha) (hs.memoryInside c)
      capacity := hs.capacity }
  reset hs := { hs with }

/-! ## The configuration registers (10_state R28 to R32) -/

/-- The configuration registers hold values that their rules allow. -/
structure State.ConfigLegal (s : State) : Prop where
  repeatLegal : minusOneOrMore s.repeatCount
  disposeLegal : minusOneOrMore s.dispose
  qualityLegal : 1 ≤ s.quality.toInt
  transpLegal : s.transp.valid = false → s.transp.colour = { r := 0#8, g := 0#8, b := 0#8 }
  sizeFixed : s.sizeSet = true → s.width ≠ 0#16 ∧ s.height ≠ 0#16
  sizeOpen : s.sizeSet = false → s.width = 0#16 ∧ s.height = 0#16
  subseqSized : s.lifecycle = .startedSubseq → s.sizeSet = true ∧ s.width.toNat * s.height.toNat ≤ s.maxPixels

theorem clampNegative_legal (w : Word) : minusOneOrMore (clampNegative w) := by
  unfold clampNegative
  split
  next h => exact .inr h
  next => exact .inl rfl

/-- A dimension of 0 takes its default, which is not 0 (44_config R225). -/
theorem defaulted_ne_zero {w default : Half} (hdefault : default ≠ 0#16) :
    (if w = 0#16 then default else w) ≠ 0#16 := by
  split <;> assumption

/-- The power-on values, which FINISH and the reset write, are legal where STATE asks for no frame size (R44, R187). -/
theorem sessionReset_configLegal {s : State} (h : s.lifecycle ≠ .startedSubseq) : (sessionReset s).ConfigLegal where
  repeatLegal := .inl rfl
  disposeLegal := .inl rfl
  qualityLegal := (by decide : 1 ≤ Config.defaultQuality.toInt)
  transpLegal _ := rfl
  sizeFixed := nofun
  sizeOpen _ := ⟨rfl, rfl⟩
  subseqSized h' := absurd h' h

/-- An ADD_FRAME that is not refused has dimensions other than 0. -/
theorem operands_ne_zero {s : State} (h : addFrameRefused s = false) : opFw s ≠ 0#16 ∧ opFh s ≠ 0#16 := by
  simp only [addFrameRefused, Bool.or_eq_false_iff, beq_eq_false_iff_ne] at h
  obtain ⟨⟨⟨-, ⟨-, hfw⟩, hfh⟩, -⟩, -⟩ := h
  exact ⟨hfw, hfh⟩

/-- After steps 1 to 3 of ADD_FRAME the dimensions are fixed and fit (R182, R183). -/
theorem submittedFrame_sized {s : State} (h : addFrameRefused s = false) (p : SinkPort) :
    (submittedFrame s p).sizeSet = true ∧
      (submittedFrame s p).width.toNat * (submittedFrame s p).height.toNat ≤ (submittedFrame s p).maxPixels := by
  simp only [submittedFrame, prepareFrame_sizeSet, prepareFrame_pixels, prepareFrame_maxPixels, true_and]
  exact sessionPixels_le h

theorem submittedFrame_size_ne_zero {s : State} (hs : s.ConfigLegal) (h : addFrameRefused s = false) (p : SinkPort) :
    (submittedFrame s p).width ≠ 0#16 ∧ (submittedFrame s p).height ≠ 0#16 := by
  simp only [submittedFrame, prepareFrame_width, prepareFrame_height]
  cases hset : s.sizeSet with
  | true => simpa using hs.sizeFixed hset
  | false => simpa using operands_ne_zero h

theorem submittedFrame_configLegal {s : State} (hs : s.ConfigLegal) (h : addFrameRefused s = false) (p : SinkPort) :
    (submittedFrame s p).ConfigLegal where
  repeatLegal := by simpa [submittedFrame] using hs.repeatLegal
  disposeLegal := by simpa [submittedFrame] using hs.disposeLegal
  qualityLegal := by simpa [submittedFrame] using hs.qualityLegal
  transpLegal := by simpa [submittedFrame] using hs.transpLegal
  sizeFixed _ := submittedFrame_size_ne_zero hs h p
  sizeOpen hopen := by simp [submittedFrame] at hopen
  subseqSized _ := submittedFrame_sized h p

/-- No command leaves a configuration register with a value that its rule does not allow. -/
theorem exec_configLegal {i : Instr} {s t : State} (h : exec i s = .next t) (hs : s.ConfigLegal) : t.ConfigLegal := by
  cases exec_ending h with
  | waits hw => obtain ⟨recs, -, rfl⟩ := hw; exact { hs with }
  | startWhileStarted | startWithoutSink | startOpenFails | startSignatureFails | addFrameNotAllowed | finishUnstarted
  | setDelay | setSizeIgnored => exact { hs with }
  | startDone => exact { hs with subseqSized := nofun }
  | addFrameFails hr p => exact { submittedFrame_configLegal hs hr p with }
  | addFrameDone hr p =>
    rw [completeFrame_eq]
    exact { submittedFrame_configLegal hs hr p with subseqSized := fun _ => submittedFrame_sized hr p }
  | finishFails p | finishDone p =>
    have hreset : (sessionReset { s with lifecycle := .finished, sink := p }).ConfigLegal :=
      sessionReset_configLegal (by simp)
    exact { hreset with }
  | setRepeat => exact { hs with repeatLegal := clampNegative_legal _ }
  | setDispose => exact { hs with disposeLegal := clampNegative_legal _ }
  | setTransparent => exact { hs with transpLegal := nofun }
  | clearTransparent => exact { hs with transpLegal := fun _ => rfl }
  | setSize hl =>
    exact
      { hs with
        sizeFixed := fun _ => ⟨defaulted_ne_zero (by decide), defaulted_ne_zero (by decide)⟩
        sizeOpen := nofun
        subseqSized := fun h => absurd h hl }
  | setQuality =>
    refine { hs with qualityLegal := ?_ }
    dsimp only [finishCmd]
    split
    · decide
    next hq => exact Int.not_lt.mp hq

theorem configLegal_blockInvariant : BlockInvariant State.ConfigLegal where
  same h hs := by rw [h]; exact { hs with }
  exec := exec_configLegal
  store _ hs := { hs with }
  reset {s} _ := { sessionReset_configLegal (s := resetBlock s) nofun with }

end Sys2Proof.Machine
end

section
/-! PROOFS. The sink operations that a command issues, as one list fixed by its acceptance: the command waits exactly when the
answers, all ok, run out before the list does (20_memory R66, R71, 43_container R181, R182, R186). -/

namespace Sys2Proof.Machine

/-! ## The sink operations of a command -/

/-- The operations that the command `i` accepted in `s` issues as long as each is answered ok (R181, R182, R186). -/
def sinkOps (i : Instr) (s : State) : List SinkOp :=
  match i with
  | .start own =>
    if s.started ∨ (own = false ∧ s.sink.present = false) then [] else openOps own ++ sinkWrites signatureBytes
  | .addFrame =>
    if addFrameRefused s then []
    else sinkWrites (frameBytes (prepareFrame s) (compressFrame (prepareFrame s)).2)
  | .finish => if s.started then finishOps s.ownSink else []
  | _ => []

/-- The sink port after the operations `pre`, all answered ok, when no answer is left. -/
def SinkPort.usedUp (p : SinkPort) (pre : List SinkOp) : SinkPort :=
  { p with answers := [], log := okRecords pre ++ p.log }

/-- The command `i` accepted in `s` waits in `t` for the answer to the operation behind `pre`. -/
def WaitsAfter (i : Instr) (s : State) (pre : List SinkOp) (t : State) : Prop :=
  (∃ op post, sinkOps i s = pre ++ op :: post) ∧ s.sink.answers = List.replicate pre.length .ok ∧
    t = waitForSink i s (s.sink.usedUp pre)

section
variable {i : Instr} {s0 s : State} {first second : List SinkOp} {between onOk onFail onFail' : State → State}
  (hsink : ∀ x, (between x).sink = x.sink)
include hsink

/-- Two stretches of operations that run out of answers wait as one (20_memory R71). -/
theorem offerThen_twice_unanswered {pre post : List SinkOp} {op : SinkOp}
    (hops : first ++ second = pre ++ op :: post) (hans : s.sink.answers = List.replicate pre.length .ok) :
    offerThen i s0 s first (fun s1 => offerThen i s0 (between s1) second onOk onFail) onFail'
      = waitForSink i s0 (s.sink.usedUp pre) := by
  rcases List.append_eq_append_iff.mp hops with ⟨mid, rfl, hsecond⟩ | ⟨mid, rfl, hfirst⟩
  · rw [offerThen_accepted i s0 s first _ _ (List.replicate mid.length .ok) (by simp [hans, List.replicate_append_replicate]),
      hsecond, offerThen_unanswered i s0 _ mid op post onOk onFail (by rw [hsink])]
    simp [hsink, SinkPort.usedUp, okRecords]
  · cases mid with
    | nil =>
      obtain rfl : op :: post = second := by simpa using hfirst
      rw [List.append_nil, offerThen_accepted i s0 s pre _ _ [] (by simp [hans])]
      refine (offerThen_unanswered i s0 _ [] op post onOk onFail (by rw [hsink]; rfl)).trans ?_
      simp [hsink, SinkPort.usedUp]
    | cons op' mid =>
      exact offerThen_unanswered i s0 s pre op' mid _ onFail' hans

/-- A command in two stretches of operations that still runs waits somewhere in them. -/
theorem offerThen_twice_waits {t : State}
    (h : offerThen i s0 s first (fun s1 => offerThen i s0 (between s1) second onOk onFail) onFail' = t)
    (hOk : ∀ x, (onOk x).running = none) (hFail : ∀ x, (onFail x).running = none)
    (hFail' : ∀ x, (onFail' x).running = none) (ht : t.running ≠ none) :
    ∃ pre op post, first ++ second = pre ++ op :: post ∧ s.sink.answers = List.replicate pre.length .ok ∧
      t = waitForSink i s0 (s.sink.usedUp pre) := by
  rcases sinkOffer_cases first s.sink with
    ⟨rest, ha, -⟩ | ⟨pre, op, post, rest, rfl, ha, -⟩ | ⟨pre, op, post, rfl, ha, -⟩
  · rw [offerThen_accepted i s0 s first _ _ rest ha] at h
    obtain ⟨pre, op, post, rfl, hrest, rfl⟩ := offerThen_waits h hOk hFail ht
    obtain rfl : rest = List.replicate pre.length .ok := by simpa [hsink] using hrest
    refine ⟨first ++ pre, op, post, by simp, ?_, ?_⟩
    · simp [ha, List.replicate_append_replicate]
    · simp [hsink, SinkPort.usedUp, okRecords]
  · rw [offerThen_failed i s0 s pre op post _ _ rest ha] at h
    exact absurd (h ▸ hFail' _) ht
  · rw [offerThen_unanswered i s0 s pre op post _ _ ha] at h
    exact ⟨pre, op, post ++ second, by simp, ha, h.symm⟩

end

/-- A command whose answers run out before its operations do waits. -/
theorem exec_of_unanswered {i : Instr} {s t : State} {pre : List SinkOp} (h : WaitsAfter i s pre t) :
    exec i s = .next t := by
  obtain ⟨⟨op, post, hops⟩, hans, rfl⟩ := h
  cases i with
  | start own =>
    rw [sinkOps] at hops
    split at hops
    next => simp at hops
    next hok =>
      obtain ⟨hidle, hsink⟩ := not_or.mp hok
      rw [exec_start, execStart, if_neg hidle, if_neg hsink]
      exact congrArg _ (offerThen_twice_unanswered (s := clearSticky s) (between := fun s1 => { s1 with ownSink := own })
        (fun _ => rfl) hops hans)
  | addFrame =>
    rw [sinkOps] at hops
    split at hops
    next => simp at hops
    next hok =>
      rw [exec_addFrame, execAddFrame, if_neg hok, submitFrame, hops]
      refine congrArg _ ((offerThen_unanswered .addFrame s _ pre op post _ _ ?_).trans ?_)
      · simpa using hans
      · simp [SinkPort.usedUp]
  | finish =>
    rw [sinkOps] at hops
    split at hops
    next hok =>
      rw [exec_finish, execFinish, if_pos hok, finishSession, hops]
      exact congrArg _ (offerThen_unanswered .finish s _ pre op post _ _ hans)
    next => simp at hops
  | setDelay | setRepeat | setDispose | setTransparent | clearTransparent | setSize | setQuality => simp [sinkOps] at hops

/-- A command that still runs after its acceptance waits for the answer to one of its operations. -/
theorem exec_waitsAfter {i : Instr} {s t : State} (h : exec i s = .next t) (ht : t.running ≠ none) :
    ∃ pre, WaitsAfter i s pre t := by
  cases i with
  | start own =>
    rw [exec_start, execStart] at h
    split at h
    next => cases h; simp at ht
    next hidle =>
      split at h <;> cases h
      next => simp at ht
      next hsink =>
        obtain ⟨pre, op, post, hops, hans, ht⟩ := offerThen_twice_waits (s := clearSticky s)
          (between := fun s1 => { s1 with ownSink := own }) (fun _ => rfl) rfl (fun _ => rfl) (fun _ => rfl) (fun _ => rfl) ht
        exact ⟨pre, ⟨op, post, by rw [sinkOps, if_neg (not_or.mpr ⟨hidle, hsink⟩), hops]⟩, hans, ht⟩
  | addFrame =>
    rw [exec_addFrame, execAddFrame] at h
    split at h <;> cases h
    next => simp at ht
    next hok =>
      obtain ⟨pre, op, post, hops, hans, ht⟩ := offerThen_waits rfl completeFrame_running (raiseCause_running _) ht
      refine ⟨pre, ⟨op, post, by rw [sinkOps, if_neg hok, hops]⟩, by simpa using hans, ?_⟩
      simpa [SinkPort.usedUp, submitFrame] using ht
  | finish =>
    rw [exec_finish, execFinish] at h
    split at h <;> cases h
    next hok =>
      obtain ⟨pre, op, post, hops, hans, ht⟩ :=
        offerThen_waits rfl (fun _ => rfl) (fun _ => rfl) ht
      exact ⟨pre, ⟨op, post, by rw [sinkOps, if_pos hok, hops]⟩, hans, ht⟩
    next => simp at ht
  | setSize =>
    rw [exec_setSize, execSetSize] at h
    split at h <;> cases h <;> simp at ht
  | setDelay | setRepeat | setDispose | setTransparent | clearTransparent | setQuality => cases h; simp at ht

end Sys2Proof.Machine
end

section
/-! PROOFS. Every step keeps the invariant of the running command: it has had an ok answer to the first of its sink operations, and
the next has no answer yet (10_state R25, 20_memory R66, 60 R249). With it, every step keeps the whole invariant. -/

namespace Sys2Proof.Machine

/-! ## What the sink operations of a command depend on -/

/-- `t` is `s` but for what the sink operations of a command do not depend on, whatever the command. -/
def SameOffers (s t : State) : Prop :=
  t = { s with
    overrun := t.overrun, running := t.running, inputs := t.inputs, readData := t.readData
    sink := { t.sink with present := s.sink.present } }

/-- Steps 1 to 3 of ADD_FRAME neither read nor write it, with SIZE set or not and TRANSP valid or not. -/
theorem prepareFrame_sameOffers {s t : State} (h : SameOffers s t) :
    prepareFrame t = { prepareFrame s with
      overrun := t.overrun, running := t.running, inputs := t.inputs, readData := t.readData
      sink := { t.sink with present := s.sink.present } } := by
  rw [h]
  cases hset : s.sizeSet <;> cases hvalid : s.transp.valid <;>
    simp only [prepareFrame, findTransparent, adoptSize, indexFrame, hset, hvalid, if_true, Bool.false_eq_true, if_false]
      <;> rfl

theorem sinkOps_sameOffers {s t : State} (h : SameOffers s t) (i : Instr) : sinkOps i t = sinkOps i s := by
  cases i with
  | addFrame =>
    have hrefused : addFrameRefused t = addFrameRefused s := by rw [h]; rfl
    rw [sinkOps, sinkOps, hrefused, prepareFrame_sameOffers h]
    rfl
  | start own => rw [h]; rfl
  | finish => rw [h]; rfl
  | setDelay | setRepeat | setDispose | setTransparent | clearTransparent | setSize | setQuality => rfl

/-- Only ADD_FRAME reads frame memory. -/
theorem sinkOps_frameMem {i : Instr} (hi : i ≠ .addFrame) (s : State) (m : Memory) :
    sinkOps i { s with frameMem := m } = sinkOps i s := by
  cases i with
  | addFrame => exact absurd rfl hi
  | start | finish | setDelay | setRepeat | setDispose | setTransparent | clearTransparent | setSize | setQuality => rfl

/-! ## A running command awaits an answer -/

/-- The running command `r` of `s` has had the ok answers to its first operations and awaits the one to the next; a dropped CMD
write has set OVERRUN (60 R244). -/
structure AwaitsAnswer (r : Running) (s : State) : Prop where
  answersUsed : s.sink.answers = []
  waits : ∃ pre op post, sinkOps r.instr (acceptedState r s) = pre ++ op :: post ∧ pre.length = r.answered ∧
    s.sink.log = okRecords pre ++ s.sink.log.drop r.answered
  overrun : r.dropped = true → s.overrun = true

/-- The invariant of the running command. -/
def State.RunningLegal (s : State) : Prop := ∀ r, s.running = some r → AwaitsAnswer r s

theorem runningLegal_of_idle {s : State} (h : s.running = none) : s.RunningLegal := by
  intro r hr
  simp [h] at hr

/-- A command that has run and still runs awaits an answer, also after what the host did meanwhile is put back. -/
theorem runningLegal_of_exec {i : Instr} {a u : State} (h : exec i a = .next u) (r : Running) (s : State) :
    (restoreMeanwhile r s u).RunningLegal := by
  intro r' hr'
  obtain ⟨pre, ⟨op, post, hops⟩, hans, rfl⟩ := exec_waitsAfter h (by rintro hu; simp [restoreMeanwhile, hu] at hr')
  obtain rfl : _ = r' := by simpa [restoreMeanwhile] using hr'
  refine ⟨rfl, ⟨pre, op, post, ?_, ?_, ?_⟩, ?_⟩
  · refine (sinkOps_sameOffers (s := a) ?_ i).trans hops
    exact rfl
  · simp [SinkPort.usedUp]
  · simp [SinkPort.usedUp, restoreMeanwhile]
  · intro hd
    have hdropped : r.dropped = true := hd
    simp [restoreMeanwhile, hdropped]

/-- A command that awaits an answer stays as it is without a new one. -/
theorem resumeCommand_of_awaitsAnswer {r : Running} {s : State} (hrun : s.running = some r) (h : AwaitsAnswer r s) :
    resumeCommand r s = .next s := by
  obtain ⟨hused, ⟨pre, op, post, hops, hlen, hlog⟩, hover⟩ := h
  have hexec := exec_of_unanswered (i := r.instr) (s := acceptedState r s) (pre := pre)
    ⟨⟨op, post, hops⟩, by simp [acceptedState, hused, hlen], rfl⟩
  have hovr : (s.overrun || r.dropped) = s.overrun := by
    cases hd : r.dropped with
    | true => simp [hover hd]
    | false => simp
  have hport : { s.sink with answers := [], log := okRecords pre ++ s.sink.log.drop r.answered } = s.sink := by
    rw [← hlog, ← hused]
  rw [resumeCommand, hexec]
  refine congrArg Host.Outcome.next ?_
  simp [restoreMeanwhile, waitForSink, acceptedState, SinkPort.usedUp, hovr, hport, hlen, ← hrun]

/-! ## Every input keeps the running command's invariant -/

/-- What the host does meanwhile reaches a waiting command neither in its operations nor in the answers it has had. -/
theorem AwaitsAnswer.of_same {r : Running} {s t : State} (h : AwaitsAnswer r s)
    (hops : sinkOps r.instr (acceptedState r t) = sinkOps r.instr (acceptedState r s))
    (hanswers : t.sink.answers = s.sink.answers) (hlog : t.sink.log = s.sink.log)
    (hoverrun : s.overrun = true → t.overrun = true) : AwaitsAnswer r t where
  answersUsed := hanswers.trans h.answersUsed
  waits := by rw [hops, hlog]; exact h.waits
  overrun := hoverrun ∘ h.overrun

theorem AwaitsAnswer.of_sameOffers {r : Running} {s t : State} (h : AwaitsAnswer r s)
    (hsame : SameOffers (acceptedState r s) (acceptedState r t)) (hanswers : t.sink.answers = s.sink.answers)
    (hlog : t.sink.log = s.sink.log) (hoverrun : s.overrun = true → t.overrun = true) : AwaitsAnswer r t :=
  h.of_same (sinkOps_sameOffers hsame _) hanswers hlog hoverrun

/-- An accepted command has completed or awaits an answer. -/
theorem exec_runningLegal {i : Instr} {s t : State} (h : exec i s = .next t) : t.RunningLegal := by
  have hsame : restoreMeanwhile ⟨i, s.arg0, s.arg1, s.sink.present, 0, false⟩ s t = t :=
    restoreMeanwhile_of_exec h rfl rfl
  exact hsame ▸ runningLegal_of_exec h _ s

theorem resumeCommand_runningLegal {r : Running} {s t : State} (h : resumeCommand r s = .next t) : t.RunningLegal := by
  obtain ⟨u, hu, hresume⟩ := resumeCommand_eq r s
  obtain rfl : restoreMeanwhile r s u = t := by simpa [hresume] using h
  exact runningLegal_of_exec hu r s

theorem dropCommand_runningLegal {r : Running} {s : State} (hrun : s.running = some r) (hs : s.RunningLegal) :
    (dropCommand r s).RunningLegal := by
  intro r' hr'
  obtain rfl : { r with dropped := true } = r' := by simpa using hr'
  obtain ⟨hused, ⟨pre, op, post, hops, hlen, hlog⟩, -⟩ := hs r hrun
  have hsame : SameOffers (acceptedState r s) (acceptedState { r with dropped := true } (dropCommand r s)) := rfl
  exact ⟨hused, ⟨pre, op, post, (sinkOps_sameOffers hsame _).trans hops, hlen, hlog⟩, fun _ => rfl⟩

theorem issueCommand_runningLegal {w : Word} {s t : State} (h : issueCommand w s = .next t) (hs : s.RunningLegal) :
    t.RunningLegal := by
  unfold issueCommand at h
  split at h
  next r hrun => cases h; exact dropCommand_runningLegal hrun hs
  next =>
    split at h
    next => exact exec_runningLegal h
    next => cases h; exact runningLegal_of_idle rfl

theorem hostWrite_runningLegal {size offset : Nat} {v : Word} {s t : State} (h : hostWrite size offset v s = .next t)
    (hs : s.RunningLegal) : t.RunningLegal := by
  unfold hostWrite at h
  split at h
  · split at h
    · exact issueCommand_runningLegal h hs
    all_goals (cases h; exact fun r hr => (hs r hr).of_sameOffers rfl rfl rfl id)
  · cases h

theorem hostRead_runningLegal {size offset : Nat} {s t : State} (h : hostRead size offset s = .next t)
    (hs : s.RunningLegal) : t.RunningLegal := by
  unfold hostRead at h
  split at h <;> cases h
  exact fun r hr => (hs r hr).of_sameOffers rfl rfl rfl id

/-- The frame producer writes while no ADD_FRAME runs, and no other command reads frame memory (70 R265). -/
theorem producerWrite_runningLegal {a : Nat} {v : Byte} {s t : State} (h : producerWrite a v s = .next t)
    (hs : s.RunningLegal) : t.RunningLegal := by
  unfold producerWrite at h
  split at h
  · cases h
  · split at h <;> cases h
    next hbusy =>
      intro r hr
      rw [frameStore_running] at hr
      have hother : r.instr ≠ .addFrame := by simpa [busyForAddFrame, hr] using hbusy
      exact (hs r hr).of_same (sinkOps_frameMem hother (acceptedState r s) _) rfl rfl id

theorem receiveAnswers_runningLegal {answers : List SinkAnswer} {s t : State} (h : receiveAnswers answers s = .next t) :
    t.RunningLegal := by
  cases hrun : s.running with
  | none => rw [receiveAnswers_idle answers hrun] at h; cases h; exact runningLegal_of_idle hrun
  | some r => rw [receiveAnswers_running answers hrun] at h; exact resumeCommand_runningLegal h

theorem takeInput_runningLegal {input : HostInput} {s t : State} (h : takeInput input s = .next t)
    (hs : s.RunningLegal) : t.RunningLegal := by
  cases input with
  | regWrite size offset value => exact hostWrite_runningLegal h hs
  | regRead size offset => exact hostRead_runningLegal h hs
  | frameWrite offset value => exact producerWrite_runningLegal h hs
  | sinkAnswers answers => exact receiveAnswers_runningLegal h
  | sinkPresent level => cases h; exact fun r hr => (hs r hr).of_sameOffers rfl rfl rfl id
  | reset => cases h; exact runningLegal_of_idle rfl

theorem step_runningLegal {s t : State} (h : step s = .next t) (hs : s.RunningLegal) : t.RunningLegal := by
  cases hin : s.inputs with
  | nil => rw [step_of_no_input hin] at h; exact idleStep_next h ▸ hs
  | cons input rest =>
    rw [step_of_input hin] at h
    exact takeInput_runningLegal h fun r hr => (hs r hr).of_sameOffers rfl rfl rfl id

/-! ## The whole invariant -/

/-- The invariant in its three parts. -/
theorem inv_iff (s : State) : s.Inv ↔ s.MemoryLegal ∧ s.ConfigLegal ∧ s.RunningLegal := by
  constructor
  · intro h
    refine ⟨{ h with }, { h with }, fun r hr => ?_⟩
    exact resumeCommand_runningLegal (h.runningStuck r hr) r hr
  · rintro ⟨hmem, hconfig, hrunning⟩
    exact
      { hmem, hconfig with
        answersUsed := fun r hr => (hrunning r hr).answersUsed
        runningStuck := fun r hr => resumeCommand_of_awaitsAnswer hr (hrunning r hr) }

/-- Settles O55, part by part: memory and configuration are reached by commands, producer and reset only, and a running
command's operations are fixed by its acceptance. -/
theorem stepKeepsTheInvariant : Obligations.StepKeepsTheInvariant := by
  intro s t hs h
  obtain ⟨hmem, hconfig, hrunning⟩ := (inv_iff s).mp hs
  exact (inv_iff t).mpr ⟨memoryLegal_blockInvariant.step h hmem, configLegal_blockInvariant.step h hconfig,
    step_runningLegal h hrunning⟩

/-- Settles O56, part by part: nothing is in frame memory, the registers hold their power-on values, no command runs. -/
theorem resetHasTheInvariant : Obligations.ResetHasTheInvariant :=
  (inv_iff State.reset).mpr
    ⟨⟨reset_frameMem_wf, nofun, Nat.succ_le_succ (Nat.zero_le _)⟩,
      { sessionReset_configLegal (s := State.reset) nofun with }, runningLegal_of_idle rfl⟩

end Sys2Proof.Machine
end

section
/-! PROOFS. Which host accesses are refused (20_memory R63): a legal one always answers a next state, because no command it could
issue is refused. -/

namespace Sys2Proof.Machine

theorem accessLegal_eq_false_iff (size offset : Nat) :
    accessLegal size offset = false ↔ size ≠ 4 ∨ offset % 4 ≠ 0 := by
  simp [accessLegal, Decidable.imp_iff_not_or]

theorem hostRead_refused_iff (size offset : Nat) (s : State) :
    hostRead size offset s = .refused .badAccess ↔ accessLegal size offset = false := by
  unfold hostRead
  split <;> simp_all

/-- A CMD write always answers a next state: dropped, run, or ended as illegal (60 R243, R244). -/
theorem issueCommand_next (w : Word) (s : State) : ∃ t, issueCommand w s = .next t := by
  unfold issueCommand
  split
  · exact ⟨_, rfl⟩
  · split
    next i _ => exact (exec_completes_or_waits i s).imp fun _ h => h.1
    next => exact ⟨_, rfl⟩

theorem hostWrite_next {size offset : Nat} (v : Word) (s : State) (h : accessLegal size offset = true) :
    ∃ t, hostWrite size offset v s = .next t := by
  rw [hostWrite, if_pos h]
  split
  · exact issueCommand_next v s
  all_goals exact ⟨_, rfl⟩

theorem hostWrite_refused_iff (size offset : Nat) (v : Word) (s : State) :
    hostWrite size offset v s = .refused .badAccess ↔ accessLegal size offset = false := by
  cases hlegal : accessLegal size offset with
  | true =>
    obtain ⟨t, ht⟩ := hostWrite_next v s hlegal
    simp [ht]
  | false => simp [hostWrite, hlegal]

/-- Settles O10: a step with an access is that access, and both kinds are refused exactly when they are not legal. -/
theorem accessRefusedExactlyWhenNotAnAlignedWord : Obligations.AccessRefusedExactlyWhenNotAnAlignedWord := by
  refine fun s size offset v rest => ⟨fun hin => ?_, fun hin => ?_⟩ <;>
    rw [step_of_input hin, takeInput, ← accessLegal_eq_false_iff]
  · exact hostRead_refused_iff ..
  · exact hostWrite_refused_iff ..

end Sys2Proof.Machine
end

section
/-! PROOFS. The sink's log, and with it the output stream, only grows (20_memory R67): a command adds the records of its own
operations, and a waiting command that goes on adds to those it has had already. -/

namespace Sys2Proof.Machine

/-! ## Offering a command's operations -/

@[simp] theorem completeFrame_sink (s : State) : (completeFrame s).sink = s.sink := by rw [completeFrame_eq]

/-- Operations behind ones that are all accepted are offered to the port those leave. -/
theorem sinkOffer_append_of_accepted (first second : List SinkOp) (p : SinkPort) (rest : List SinkAnswer)
    (h : p.answers = List.replicate first.length .ok ++ rest) :
    sinkOffer (first ++ second) p = sinkOffer second { p with answers := rest, log := okRecords first ++ p.log } := by
  induction first generalizing p with
  | nil =>
    obtain rfl : p.answers = rest := by simpa using h
    rfl
  | cons op first ih =>
    rw [List.length_cons, List.replicate_succ, List.cons_append] at h
    simp only [List.cons_append, sinkOffer, h]
    rw [ih _ rfl]
    simp [okRecords_cons]

/-- Offering operations only adds records to the log. -/
theorem log_suffix_sinkOffer (ops : List SinkOp) (p : SinkPort) : p.log <:+ (sinkOffer ops p).1.log := by
  rcases sinkOffer_cases ops p with ⟨rest, -, h⟩ | ⟨pre, op, post, rest, -, -, h⟩ | ⟨pre, op, post, -, -, h⟩ <;>
    rw [h] <;> exact List.suffix_append ..

/-- The records of operations accepted stay when more are offered. -/
theorem okRecords_suffix_sinkOffer (first second : List SinkOp) (p : SinkPort) (rest : List SinkAnswer)
    (h : p.answers = List.replicate first.length .ok ++ rest) :
    okRecords first ++ p.log <:+ (sinkOffer (first ++ second) p).1.log := by
  rw [sinkOffer_append_of_accepted first second p rest h]
  exact log_suffix_sinkOffer second { p with answers := rest, log := okRecords first ++ p.log }

/-- Offering operations and then those of the continuation leaves the port that offering all of them leaves. -/
theorem offerThen_sink {i : Instr} {s0 s : State} {first : List SinkOp} (second : List SinkOp)
    {onOk onFail : State → State} (hOk : ∀ x, (onOk x).sink = (sinkOffer second x.sink).1)
    (hFail : ∀ x, (onFail x).sink = x.sink) :
    (offerThen i s0 s first onOk onFail).sink = (sinkOffer (first ++ second) s.sink).1 := by
  rcases sinkOffer_cases first s.sink with
    ⟨rest, ha, -⟩ | ⟨pre, op, post, rest, rfl, ha, -⟩ | ⟨pre, op, post, rfl, ha, -⟩
  · rw [offerThen_accepted i s0 s first _ _ rest ha, hOk, sinkOffer_append_of_accepted first second _ rest ha]
  · rw [offerThen_failed i s0 s pre op post _ _ rest ha, hFail, List.append_assoc]
    exact (congrArg Prod.fst (sinkOffer_failed pre op (post ++ second) s.sink rest ha)).symm
  · rw [offerThen_unanswered i s0 s pre op post _ _ ha, List.append_assoc]
    exact (congrArg Prod.fst (sinkOffer_unanswered pre op (post ++ second) s.sink ha)).symm

/-- The same, when the continuation offers nothing more. -/
theorem offerThen_sink_last {i : Instr} {s0 s : State} {ops : List SinkOp} {onOk onFail : State → State}
    (hOk : ∀ x, (onOk x).sink = x.sink) (hFail : ∀ x, (onFail x).sink = x.sink) :
    (offerThen i s0 s ops onOk onFail).sink = (sinkOffer ops s.sink).1 := by
  rw [offerThen_sink [] hOk hFail, List.append_nil]

/-- A command leaves the sink port as its operations, offered as one list, leave it. -/
theorem exec_sink {i : Instr} {s t : State} (h : exec i s = .next t) : t.sink = (sinkOffer (sinkOps i s) s.sink).1 := by
  cases i with
  | start own =>
    rw [exec_start, execStart] at h
    split at h
    next hs => cases h; rw [sinkOps, if_pos (.inl hs)]; rfl
    next hs =>
      split at h <;> cases h
      next hp => rw [sinkOps, if_pos (.inr hp)]; rfl
      next hp =>
        rw [sinkOps, if_neg (not_or.mpr ⟨hs, hp⟩)]
        exact offerThen_sink (s := clearSticky s) _ (fun _ => offerThen_sink_last (fun _ => rfl) fun _ => rfl) fun _ => rfl
  | addFrame =>
    rw [exec_addFrame, execAddFrame] at h
    split at h <;> cases h
    next hr => rw [sinkOps, if_pos hr]; rfl
    next hr =>
      rw [sinkOps, if_neg hr, submitFrame, offerThen_sink_last completeFrame_sink (raiseCause_sink _), prepareFrame_sink]
  | finish =>
    rw [exec_finish, execFinish] at h
    split at h <;> cases h
    next hs =>
      rw [sinkOps, if_pos hs]
      exact offerThen_sink_last (fun _ => rfl) fun _ => rfl
    next hs => rw [sinkOps, if_neg hs]; rfl
  | setSize =>
    rw [exec_setSize, execSetSize] at h
    split at h <;> cases h <;> rfl
  | setDelay | setRepeat | setDispose | setTransparent | clearTransparent | setQuality => cases h; rfl

/-! ## Every input only adds to the log -/

theorem exec_log_suffix {i : Instr} {s t : State} (h : exec i s = .next t) : s.sink.log <:+ t.sink.log := by
  rw [exec_sink h]
  exact log_suffix_sinkOffer ..

theorem issueCommand_log_suffix {w : Word} {s t : State} (h : issueCommand w s = .next t) :
    s.sink.log <:+ t.sink.log := by
  unfold issueCommand at h
  split at h
  · cases h; exact List.suffix_rfl
  · split at h
    · exact exec_log_suffix h
    · cases h; exact List.suffix_rfl

theorem hostWrite_log_suffix {size offset : Nat} {v : Word} {s t : State} (h : hostWrite size offset v s = .next t) :
    s.sink.log <:+ t.sink.log := by
  unfold hostWrite at h
  split at h
  · split at h
    · exact issueCommand_log_suffix h
    all_goals (cases h; exact List.suffix_rfl)
  · cases h

theorem hostRead_log {size offset : Nat} {s t : State} (h : hostRead size offset s = .next t) :
    t.sink.log = s.sink.log := by
  unfold hostRead at h
  split at h <;> cases h
  rfl

theorem producerWrite_log {a : Nat} {v : Byte} {s t : State} (h : producerWrite a v s = .next t) :
    t.sink.log = s.sink.log := by
  unfold producerWrite at h
  split at h
  · cases h
  · split at h <;> cases h
    rfl

/-- A waiting command that goes on has the operations answered before accepted again, which rebuilds their records, and adds
the records of the later ones (20_memory R71; log 4). -/
theorem resumeCommand_log_suffix {r : Running} {s t : State} (answers : List SinkAnswer) (hs : AwaitsAnswer r s)
    (h : resumeCommand r (s.addAnswers answers) = .next t) : s.sink.log <:+ t.sink.log := by
  obtain ⟨u, hu, hresume⟩ := resumeCommand_eq r (s.addAnswers answers)
  obtain rfl : restoreMeanwhile r (s.addAnswers answers) u = t := by simpa [hresume] using h
  obtain ⟨hused, ⟨pre, op, post, hops, hlen, hlog⟩, -⟩ := hs
  have hsame : SameOffers (acceptedState r s) (acceptedState r (s.addAnswers answers)) := rfl
  have hanswers : (acceptedState r (s.addAnswers answers)).sink.answers = List.replicate pre.length .ok ++ answers := by
    simp [acceptedState, State.addAnswers, hused, hlen]
  rw [hlog, restoreMeanwhile, exec_sink hu, sinkOps_sameOffers hsame, hops]
  exact okRecords_suffix_sinkOffer pre (op :: post) (acceptedState r (s.addAnswers answers)).sink answers hanswers

theorem receiveAnswers_log_suffix {answers : List SinkAnswer} {s t : State} (hs : s.RunningLegal)
    (h : receiveAnswers answers s = .next t) : s.sink.log <:+ t.sink.log := by
  cases hrun : s.running with
  | none => rw [receiveAnswers_idle answers hrun] at h; cases h; exact List.suffix_rfl
  | some r => rw [receiveAnswers_running answers hrun] at h; exact resumeCommand_log_suffix answers (hs r hrun) h

theorem takeInput_log_suffix {input : HostInput} {s t : State} (hs : s.RunningLegal)
    (h : takeInput input s = .next t) : s.sink.log <:+ t.sink.log := by
  cases input with
  | regWrite size offset value => exact hostWrite_log_suffix h
  | regRead size offset => exact (hostRead_log h).symm ▸ List.suffix_rfl
  | frameWrite offset value => exact (producerWrite_log h).symm ▸ List.suffix_rfl
  | sinkAnswers answers => exact receiveAnswers_log_suffix hs h
  | sinkPresent level => cases h; exact List.suffix_rfl
  | reset => cases h; exact List.suffix_rfl

theorem step_log_suffix {s t : State} (hs : s.RunningLegal) (h : step s = .next t) : s.sink.log <:+ t.sink.log := by
  cases hin : s.inputs with
  | nil => rw [step_of_no_input hin] at h; exact idleStep_next h ▸ List.suffix_rfl
  | cons input rest =>
    have htaken : State.RunningLegal { s with inputs := rest } := fun r hr => (hs r hr).of_sameOffers rfl rfl rfl id
    rw [step_of_input hin] at h
    exact takeInput_log_suffix (s := { s with inputs := rest }) htaken h

/-- Settles O53: records added to the log add their bytes at the end of the stream. -/
theorem streamOnlyGrows : Obligations.StreamOnlyGrows := by
  intro s t hs h
  obtain ⟨-, -, hrunning⟩ := (inv_iff s).mp hs
  obtain ⟨new, hlog⟩ := step_log_suffix hrunning h
  exact ⟨streamOf new, by rw [State.stream, ← hlog, streamOf_append]; rfl⟩

end Sys2Proof.Machine
end

section
/-! PROOFS. The command word and its decoder: a word is its three fields, the decoder inverts the encoder, and it rejects a word
exactly on one of the three conditions of R94 (30_encoding R90 to R96, 60 R243). -/

namespace Sys2Proof

/-! ## The fields of a word (R90) -/

theorem wordOpcode_toNat (w : Word) : (wordOpcode w).toNat = w.toNat % 256 := by
  simp [wordOpcode]

theorem wordReserved_toNat (w : Word) : (wordReserved w).toNat = w.toNat / 512 := by
  have := w.isLt
  simp only [wordReserved, BitVec.extractLsb'_toNat, Nat.shiftRight_eq_div_pow]
  omega

theorem wordOwn_eq_true_iff (w : Word) : wordOwn w = true ↔ w.toNat / 256 % 2 = 1 := by
  simp [wordOwn, BitVec.getLsbD, Nat.testBit_eq_decide_div_mod_eq]

/-- The three fields are all of a word. -/
theorem word_ext {v w : Word} (hop : wordOpcode v = wordOpcode w) (hres : wordReserved v = wordReserved w)
    (hown : wordOwn v = wordOwn w) : v = w := by
  have hopNat := congrArg BitVec.toNat hop
  have hresNat := congrArg BitVec.toNat hres
  have hownNat : v.toNat / 256 % 2 = 1 ↔ w.toNat / 256 % 2 = 1 := by rw [← wordOwn_eq_true_iff, hown, wordOwn_eq_true_iff]
  rw [wordOpcode_toNat, wordOpcode_toNat] at hopNat
  rw [wordReserved_toNat, wordReserved_toNat] at hresNat
  apply BitVec.eq_of_toNat_eq
  omega

@[simp] theorem wordOpcode_encode (i : Instr) : wordOpcode (encode i) = instrOpcode i :=
  BitVec.extractLsb'_append_eq_right

@[simp] theorem wordReserved_encode (i : Instr) : wordReserved (encode i) = 0#23 := by
  rw [wordReserved, encode, BitVec.extractLsb'_append_eq_of_le (by decide)]
  exact BitVec.extractLsb'_append_eq_left

@[simp] theorem wordOwn_encode (i : Instr) : wordOwn (encode i) = instrOwn i := by
  rw [wordOwn, encode, BitVec.getLsbD_append, BitVec.getLsbD_append]
  simp

/-- A command's word is the one with its fields. -/
theorem eq_encode_iff_fields (w : Word) (i : Instr) :
    w = encode i ↔ wordOpcode w = instrOpcode i ∧ wordReserved w = 0#23 ∧ wordOwn w = instrOwn i := by
  refine ⟨fun h => by simp [h], fun ⟨hop, hres, hown⟩ => word_ext ?_ ?_ ?_⟩
  · rw [hop, wordOpcode_encode]
  · rw [hres, wordReserved_encode]
  · rw [hown, wordOwn_encode]

/-- The mask of START keeps OPCODE and the reserved bits, and clears OWN (R92). -/
theorem word_fields_and_startMask (w : Word) :
    wordOpcode (w &&& 0xFFFFFEFF#32) = wordOpcode w ∧ wordReserved (w &&& 0xFFFFFEFF#32) = wordReserved w ∧
      wordOwn (w &&& 0xFFFFFEFF#32) = false := by
  refine ⟨?_, ?_, ?_⟩
  · rw [wordOpcode, BitVec.extractLsb'_and]
    exact BitVec.and_allOnes
  · rw [wordReserved, BitVec.extractLsb'_and]
    exact BitVec.and_allOnes
  · simp [wordOwn]

/-! ## The decoder inverts the encoder (R91, R92) -/

theorem instrOwn_eq_true_iff (i : Instr) : instrOwn i = true ↔ i = .start true := by
  cases i <;> simp [instrOwn]

/-- The opcode map gives a command for its own opcode only. -/
theorem eq_instrOpcode_of_opcodeInstr {own : Bool} {op : Byte} {i : Instr} (h : opcodeInstr own op = some i) :
    op = instrOpcode i := by
  unfold opcodeInstr at h
  split at h <;> cases h <;> exact BitVec.eq_of_toNat_eq ‹_›

/-- Where OWN is allowed, the opcode map gives a command its own OWN: START takes the bit, and for the others it is 0. -/
theorem eq_instrOwn_of_allowed {own : Bool} {i : Instr} (hmap : opcodeInstr own (instrOpcode i) = some i)
    (hallowed : ¬(own = true ∧ instrOpcode i ≠ 0x01#8)) : own = instrOwn i := by
  cases i with
  | start _ => simpa [opcodeInstr, instrOpcode, instrOwn] using hmap
  | _ => simpa [instrOpcode, instrOwn] using hallowed

theorem decode_encode (i : Instr) : decode (encode i) = .ok i := by
  cases i with
  | start own => cases own <;> rfl
  | _ => rfl

theorem eq_encode_of_decode {w : Word} {i : Instr} (h : decode w = .ok i) : w = encode i := by
  unfold decode at h
  split at h
  · cases h
  next hi =>
    split_ifs at h with hres hown
    cases h
    have hop := eq_instrOpcode_of_opcodeInstr hi
    rw [hop] at hi hown
    exact (eq_encode_iff_fields w _).mpr ⟨hop, not_not.mp hres, eq_instrOwn_of_allowed hi hown⟩

/-- Every command has one word, and no other word decodes to it. -/
theorem decode_eq_ok_iff (w : Word) (i : Instr) : decode w = .ok i ↔ w = encode i :=
  ⟨eq_encode_of_decode, fun h => h ▸ decode_encode i⟩

/-- R92 in numbers. -/
theorem decode_eq_ok_iff_toNat (w : Word) (i : Instr) :
    decode w = .ok i ↔
      w.toNat % 256 = (instrOpcode i).toNat ∧ w.toNat / 512 = 0 ∧ (w.toNat / 256 % 2 = 1 ↔ i = .start true) := by
  rw [decode_eq_ok_iff, eq_encode_iff_fields, ← BitVec.toNat_inj, wordOpcode_toNat, ← BitVec.toNat_inj, wordReserved_toNat,
    Bool.eq_iff_iff, wordOwn_eq_true_iff, instrOwn_eq_true_iff]
  rfl

/-- START is matched under a mask that leaves OWN out (R92). -/
theorem decode_start_iff_mask (w : Word) :
    (∃ own, decode w = .ok (.start own)) ↔ w &&& 0xFFFFFEFF#32 = 0x00000001#32 := by
  obtain ⟨hop, hres, hown⟩ := word_fields_and_startMask w
  have hmatch : 0x00000001#32 = encode (.start false) := rfl
  rw [hmatch, eq_encode_iff_fields, hop, hres, hown]
  simp [decode_eq_ok_iff, eq_encode_iff_fields, instrOpcode, instrOwn]

/-- Settles O1: the decoder inverts the encoder. -/
theorem decodeOfEncodeIsTheCommand : Obligations.DecodeOfEncodeIsTheCommand :=
  fun i _ => decode_encode i

/-- Settles O2: a word decodes to a command exactly when it is the command's word, read field by field. -/
theorem wordSelectsCommandByOpcodeReservedAndOwn : Obligations.WordSelectsCommandByOpcodeReservedAndOwn := by
  refine ⟨fun w i => ?_, decode_start_iff_mask, fun w i _ => decode_eq_ok_iff w i, fun w i j hi hj => ?_⟩
  · cases i <;> exact decode_eq_ok_iff_toNat w _
  · exact Except.ok.inj (hi.symm.trans hj)

/-- Settles O4, word by word. -/
theorem sampleWordsDecode : Obligations.SampleWordsDecode :=
  ⟨rfl, rfl, rfl, rfl, rfl, rfl, rfl, rfl, rfl, rfl, rfl⟩

/-! ## Illegal words (R94) -/

/-- The opcodes outside the map. -/
theorem opcodeInstr_eq_none_iff (own : Bool) (op : Byte) :
    opcodeInstr own op = none ↔ op.toNat ∉ [0x01, 0x02, 0x03, 0x10, 0x11, 0x12, 0x13, 0x14, 0x15, 0x16] := by
  unfold opcodeInstr
  split <;> simp_all

theorem decode_rejects_iff (w : Word) :
    (∀ i, decode w ≠ .ok i) ↔
      opcodeInstr (wordOwn w) (wordOpcode w) = none ∨ wordReserved w ≠ 0#23 ∨
        (wordOwn w = true ∧ wordOpcode w ≠ 0x01#8) := by
  unfold decode
  split
  next hnone => simp [hnone]
  next i hsome =>
    split_ifs with hres hown
    · simp [hres]
    · simp [hown]
    · simpa [hsome, hres] using hown

/-- R94 in numbers: the opcode is not in the map, a reserved bit is set, or OWN is set off START. -/
theorem decode_rejects_iff_toNat (w : Word) :
    (∀ i, decode w ≠ .ok i) ↔
      w.toNat % 256 ∉ [0x01, 0x02, 0x03, 0x10, 0x11, 0x12, 0x13, 0x14, 0x15, 0x16]
        ∨ w.toNat / 512 ≠ 0 ∨ (w.toNat / 256 % 2 = 1 ∧ w.toNat % 256 ≠ 0x01) := by
  rw [decode_rejects_iff, opcodeInstr_eq_none_iff, wordOwn_eq_true_iff, ne_eq, ← BitVec.toNat_inj, wordReserved_toNat, ne_eq,
    ← BitVec.toNat_inj, wordOpcode_toNat]
  rfl

end Sys2Proof

namespace Sys2Proof.Machine

/-- An idle block completes an illegal word at once, with RESULT alone written (60 R243). -/
theorem issueCommand_rejected {s : State} {w : Word} (hidle : s.running = none) (hw : ∀ i, decode w ≠ .ok i) :
    issueCommand w s = .next { s with result := .illegal } := by
  cases hd : decode w with
  | ok i => exact absurd hd (hw i)
  | error e => simp [issueCommand, hidle, hd, raiseCause, finishCmd, causeCode]

/-- Settles O3: the conditions of R94 are those on which the decoder rejects, and a rejected word writes RESULT. -/
theorem illegalWordOnlyWritesResult : Obligations.IllegalWordOnlyWritesResult := by
  refine fun w s rest => ⟨(decode_rejects_iff_toNat w).symm, fun hidle hin hw => ?_⟩
  rw [step_of_input hin, takeInput, hostWrite_cmd]
  exact issueCommand_rejected (s := { s with inputs := rest }) hidle hw

end Sys2Proof.Machine
end

section
/-! PROOFS. The operands that an assembly statement writes are those its command reads (30_encoding R93, R97). -/

namespace Sys2Proof.Machine

/-! ## Reading an assembled word -/

@[simp] theorem lowHalf_pairWord (hi lo : Nat) : lowHalf (pairWord hi lo) = BitVec.ofNat 16 lo :=
  BitVec.extractLsb'_append_eq_right

@[simp] theorem highHalf_pairWord (hi lo : Nat) : highHalf (pairWord hi lo) = BitVec.ofNat 16 hi :=
  BitVec.extractLsb'_append_eq_left

/-- A pair that fits its halves is read back whole. -/
theorem pairWord_halves_toNat {hi lo : Nat} (hlo : lo < 65536) (hhi : hi < 65536) :
    (lowHalf (pairWord hi lo)).toNat = lo ∧ (highHalf (pairWord hi lo)).toNat = hi := by
  simp [Nat.mod_eq_of_lt hlo, Nat.mod_eq_of_lt hhi]

/-- The word of the number 0xRRGGBB holds its components byte by byte. -/
theorem rgbWord_eq_append (r g b : Byte) :
    (0#8 ++ BitVec.ofNat 24 (65536 * r.toNat + 256 * g.toNat + b.toNat) : Word) = 0#8 ++ r ++ g ++ b := by
  apply BitVec.eq_of_toNat_eq
  simp only [toNat_append_eq_add, BitVec.toNat_ofNat]
  omega

/-- The components of a colour word are its three low bytes. -/
theorem opColour_of_arg0 {s : State} {r g b : Byte} (h : s.arg0 = 0#8 ++ r ++ g ++ b) :
    opColour s = { r := r, g := g, b := b } := by
  have hr : (0#8 ++ r ++ g ++ b).extractLsb' 16 8 = r := by
    rw [BitVec.extractLsb'_append_eq_of_le (by decide), BitVec.extractLsb'_append_eq_of_le (by decide)]
    exact BitVec.extractLsb'_append_eq_right
  have hg : (0#8 ++ r ++ g ++ b).extractLsb' 8 8 = g := by
    rw [BitVec.extractLsb'_append_eq_of_le (by decide)]
    exact BitVec.extractLsb'_append_eq_right
  have hb : (0#8 ++ r ++ g ++ b).extractLsb' 0 8 = b := BitVec.extractLsb'_append_eq_right
  simp only [opColour, h, hr, hg, hb]

/-! ## The statements with operands (R97) -/

theorem asmWrites_setTransparent_rgb (r g b : Byte) :
    asmWrites (.setTransparent (65536 * r.toNat + 256 * g.toNat + b.toNat))
      = [arg0Write (0#8 ++ r ++ g ++ b), cmdWrite 0x00000013#32] := by
  rw [asmWrites, rgbWord_eq_append]

/-- Settles O5, operand kind by operand kind: a pair of halves with `present`, an unsigned word, a signed word, a colour and a
pair of halves alone. -/
theorem assembledOperandsAreReadBack : Obligations.AssembledOperandsAreReadBack := by
  refine ⟨fun fw fh present s hw hh => ⟨rfl, fun h0 h1 => ?_⟩, fun ms s hms => ⟨rfl, fun h0 => ?_⟩,
    fun n s hlow hhigh => ⟨rfl, rfl, rfl, fun h0 => ?_⟩,
    fun r g b s => ⟨asmWrites_setTransparent_rgb r g b, opColour_of_arg0⟩,
    fun w h s hw hh => ⟨rfl, fun h0 => ?_⟩⟩
  · obtain ⟨hlo, hhi⟩ := pairWord_halves_toNat hw hh
    refine ⟨by rw [opFw, h0, hlo], by rw [opFh, h0, hhi], ?_⟩
    rw [opPresent, h1]
    cases present <;> rfl
  · rw [opMs, h0, BitVec.toNat_ofNat, Nat.mod_eq_of_lt hms]
  · rw [opSigned, h0, BitVec.toInt_ofInt_eq_self (by decide) hlow hhigh]
  · obtain ⟨hlo, hhi⟩ := pairWord_halves_toNat hw hh
    exact ⟨by rw [opW, h0, hlo], by rw [opH, h0, hhi]⟩

end Sys2Proof.Machine
end

section
/-! PROOFS. What the memories that die with a frame hold before a command has no effect that a host or the sink can see. Most of
them are written before they are read; CODETAB is not, but it is read only at slots that the frame has filled (10_state R38 to R40,
41_palette_indexer R126, 42_lzw R143, R146, R149, 93 P7). -/

namespace Sys2Proof.Machine

/-! ## The subroutines that never touch CODETAB (10_state R40) -/

/-- The unit with another CODETAB. -/
def LzwUnit.withCodetab (t : List (Nat × Nat)) (u : LzwUnit) : LzwUnit := { u with codetab := t }

/-- A subroutine that neither reads nor writes CODETAB. -/
def IgnoresCodetab (f : LzwUnit → LzwUnit × List Byte) : Prop :=
  ∀ t u, f (u.withCodetab t) = (f u).map (LzwUnit.withCodetab t) id

/-- One such subroutine after another, with the bytes of both. -/
theorem IgnoresCodetab.andThen {f g : LzwUnit → LzwUnit × List Byte} (hf : IgnoresCodetab f) (hg : IgnoresCodetab g) :
    IgnoresCodetab fun u => ((g (f u).1).1, (f u).2 ++ (g (f u).1).2) := by
  intro t u
  simp only [hf t u, Prod.map_fst, Prod.map_snd, hg t]
  rfl

theorem flushChar_ignoresCodetab : IgnoresCodetab flushChar := by
  intro t u
  rw [flushChar, flushChar, apply_ite (Prod.map _ _)]
  rfl

theorem charOut_ignoresCodetab (b : Byte) : IgnoresCodetab (charOut b) := by
  intro t u
  rw [charOut, charOut, apply_ite (Prod.map _ _), ← flushChar_ignoresCodetab]
  rfl

theorem drainBytes_ignoresCodetab (k : Nat) : IgnoresCodetab (drainBytes k) := by
  induction k with
  | zero => exact fun _ _ => rfl
  | succ k ih =>
    exact .andThen (f := fun u => charOut (BitVec.ofNat 8 (u.acc &&& 0xFF)) u)
      (g := fun u => drainBytes k { u with acc := u.acc >>> 8, accBits := u.accBits - 8 })
      (fun t u => charOut_ignoresCodetab _ t u)
      (fun t u => ih t { u with acc := u.acc >>> 8, accBits := u.accBits - 8 })

theorem finalFlush_ignoresCodetab : IgnoresCodetab finalFlush :=
  .andThen (f := fun u => drainBytes ((u.accBits + 7) / 8) u) (fun t u => drainBytes_ignoresCodetab _ t u)
    flushChar_ignoresCodetab

theorem updateWidth_withCodetab (t : List (Nat × Nat)) (u : LzwUnit) :
    updateWidth (u.withCodetab t) = (updateWidth u).withCodetab t := by
  rw [updateWidth, updateWidth, apply_ite (LzwUnit.withCodetab t), apply_ite (LzwUnit.withCodetab t)]
  rfl

theorem outputCode_ignoresCodetab (code : Nat) : IgnoresCodetab (outputCode code) := by
  intro t u
  have hdrain : drainWhole (packCode code (u.withCodetab t)) = (drainWhole (packCode code u)).map (.withCodetab t) id :=
    drainBytes_ignoresCodetab _ t (packCode code u)
  simp only [outputCode, hdrain, Prod.map_fst, updateWidth_withCodetab, finalFlush_ignoresCodetab t]
  rw [apply_ite (Prod.map _ _)]
  rfl

/-! ## Units with the same strings (R146, R149) -/

/-- Two units that differ in CODETAB only, and there only at slots whose HTAB entry is EMPTY. -/
structure LzwUnit.SameStrings (u v : LzwUnit) : Prop where
  others : v = u.withCodetab v.codetab
  codes : ∀ i, cellsGet u.htab i ≠ none → codeAt v i = codeAt u i

/-- Two outcomes of a subroutine: the same bytes, and units with the same strings. -/
def SameBytes (r r' : LzwUnit × List Byte) : Prop := r.1.SameStrings r'.1 ∧ r'.2 = r.2

section
variable {u v : LzwUnit} (h : u.SameStrings v)
include h

theorem LzwUnit.SameStrings.clear : v.clear = u.clear := by rw [h.others]; rfl
theorem LzwUnit.SameStrings.eoi : v.eoi = u.eoi := by rw [h.others]; rfl
theorem LzwUnit.SameStrings.free : v.free = u.free := by rw [h.others]; rfl
theorem LzwUnit.SameStrings.ent : v.ent = u.ent := by rw [h.others]; rfl
theorem LzwUnit.SameStrings.htab : v.htab = u.htab := by rw [h.others]; rfl
theorem LzwUnit.SameStrings.curPix : v.curPix = u.curPix := by rw [h.others]; rfl

theorem LzwUnit.SameStrings.withEnt (e : Nat) : LzwUnit.SameStrings { u with ent := e } { v with ent := e } :=
  ⟨by rw [h.others]; rfl, h.codes⟩

theorem LzwUnit.SameStrings.withCurPix (k : Nat) : LzwUnit.SameStrings { u with curPix := k } { v with curPix := k } :=
  ⟨by rw [h.others]; rfl, h.codes⟩

theorem outputCode_sameBytes (code : Nat) : SameBytes (outputCode code u) (outputCode code v) := by
  have hout := outputCode_ignoresCodetab code v.codetab u
  rw [← h.others] at hout
  have hu := outputCode_sameCodes code u
  have hv := outputCode_sameCodes code v
  refine ⟨⟨?_, fun i hi => ?_⟩, (congrArg Prod.snd hout :)⟩
  · rw [hv.codetab]
    exact congrArg Prod.fst hout
  · rw [hu.htab] at hi
    rw [codeAt, codeAt, hu.codetab, hv.codetab]
    exact h.codes i hi

theorem secondaryProbe_sameStrings (key disp fuel i : Nat) :
    secondaryProbe v key disp fuel i = secondaryProbe u key disp fuel i := by
  induction fuel generalizing i with
  | zero => rfl
  | succ fuel ih =>
    rw [secondaryProbe, secondaryProbe, h.htab, ih]
    cases hslot : cellsGet u.htab (nextSlot i disp) with
    | none => rfl
    | some k => rw [h.codes _ (by simp [hslot])]

/-- A lookup reads CODETAB at slots that are not EMPTY only. -/
theorem lookupPair_sameStrings (c : Nat) : lookupPair v c = lookupPair u c := by
  rw [lookupPair, lookupPair, h.htab, h.ent]
  cases hslot : cellsGet u.htab (primarySlot u.ent c) with
  | none => rfl
  | some k => rw [h.codes _ (by simp [hslot]), secondaryProbe_sameStrings h]

/-- An insertion fills its slot of CODETAB with the slot of HTAB. -/
theorem insertPair_sameStrings (i key : Nat) : (insertPair i key u).SameStrings (insertPair i key v) := by
  refine ⟨by rw [h.others]; rfl, fun j hj => ?_⟩
  by_cases hji : j = i
  · rw [hji, (insertPair_get i key u).2, (insertPair_get i key v).2, h.free]
  · have hj' : cellsGet u.htab j ≠ none := by rwa [← cellsGet_put_other u.htab key hji]
    have hcode := h.codes j hj'
    rw [codeAt, codeAt] at hcode ⊢
    rwa [insertPair, insertPair, cellsGet_put_other _ _ hji, cellsGet_put_other _ _ hji]

/-- Clearing the dictionary leaves no slot at which CODETAB is read. -/
theorem clearBlock_sameBytes : SameBytes (clearBlock u) (clearBlock v) := by
  rw [clearBlock, clearBlock, h.clear]
  exact outputCode_sameBytes ⟨by rw [h.others]; rfl, fun _ hi => absurd rfl hi⟩ _

end

/-- Subroutines that run one after the other. -/
theorem SameBytes.append {r r' q q' : LzwUnit × List Byte} (hr : SameBytes r r') (hq : SameBytes q q') :
    SameBytes (q.1, r.2 ++ q.2) (q'.1, r'.2 ++ q'.2) :=
  ⟨hq.1, by rw [hr.2, hq.2]⟩

section
variable {u v : LzwUnit} (h : u.SameStrings v)
include h

theorem missPair_sameBytes (i c : Nat) : SameBytes (missPair i c u) (missPair i c v) := by
  have hout := outputCode_sameBytes h u.ent
  have hnext := hout.1.withEnt c
  simp only [missPair, h.ent]
  by_cases hfree : (outputCode u.ent u).1.free < Config.maxMaxCode
  · rw [if_pos hfree, if_pos (hout.1.free ▸ hfree)]
    exact ⟨insertPair_sameStrings hnext i _, hout.2⟩
  · rw [if_neg hfree, if_neg (hout.1.free ▸ hfree)]
    exact hout.append (clearBlock_sameBytes hnext)

theorem compressPixel_sameBytes (c : Nat) : SameBytes (compressPixel c u) (compressPixel c v) := by
  rw [compressPixel, compressPixel, lookupPair_sameStrings h]
  cases lookupPair u c with
  | hit slot code => exact ⟨h.withEnt code, rfl⟩
  | miss slot => exact missPair_sameBytes h slot c

theorem compressEnd_sameBytes : SameBytes (compressEnd u) (compressEnd v) := by
  have hout := outputCode_sameBytes h u.ent
  simp only [compressEnd, h.ent, hout.1.eoi]
  exact hout.append (outputCode_sameBytes hout.1 _)

end

theorem compressPixels_sameBytes (pixels : List Byte) {u v : LzwUnit} (h : u.SameStrings v) :
    SameBytes (compressPixels pixels u) (compressPixels pixels v) := by
  induction pixels generalizing u v with
  | nil => exact ⟨h, rfl⟩
  | cons c rest ih =>
    have hpixel := compressPixel_sameBytes (h.withCurPix (u.curPix + 1)) c.toNat
    simp only [compressPixels, h.curPix]
    exact hpixel.append (ih hpixel.1)

/-- The compressor's bytes do not depend on the unit it starts from: LZW_INIT empties HTAB (R143). -/
theorem lzwCompress_bytes (initBits : Nat) (indices : List Byte) (u v : LzwUnit) :
    (lzwCompress initBits indices v).2 = (lzwCompress initBits indices u).2 := by
  cases indices with
  | nil => rfl
  | cons first rest =>
    have hinit : LzwUnit.SameStrings
        { lzwInit initBits (first :: rest).length u with ent := first.toNat, curPix := 1 }
        { lzwInit initBits (first :: rest).length v with ent := first.toNat, curPix := 1 } :=
      ⟨rfl, fun _ hi => absurd rfl hi⟩
    have hfirst := outputCode_sameBytes hinit (lzwInit initBits (first :: rest).length u).clear
    have hrest := compressPixels_sameBytes rest hfirst.1
    exact ((hfirst.append hrest).append (compressEnd_sameBytes hrest.1)).2

/-! ## States with the same visible part (93 P7) -/

/-- The state with other contents of the memories that die with a frame. -/
def State.withDead (f : FrameUnit) (u : LzwUnit) (s : State) : State := { s with frame := f, lzw := u }

/-- Two ways on that have the same visible effect, whatever the dead memories of the state the second starts from. -/
def SameEffect (k k' : State → State) : Prop := ∀ f u s, visiblePart (k' (s.withDead f u)) = visiblePart (k s)

theorem raiseCause_sameEffect (c : Cause) : SameEffect (raiseCause c) (raiseCause c) := fun _ _ _ => rfl

theorem completeFrame_sameEffect : SameEffect completeFrame completeFrame := by
  intro f u s
  rw [completeFrame_eq, completeFrame_eq]
  rfl

/-- The rule for offered operations: they end alike, and then their continuations do. -/
theorem offerThen_sameEffect (i : Instr) (f : FrameUnit) (u : LzwUnit) (s0 : State) (ops : List SinkOp)
    {onOk onOk' onFail onFail' : State → State} (hOk : SameEffect onOk onOk') (hFail : SameEffect onFail onFail') :
    SameEffect (offerThen i s0 · ops onOk onFail) (offerThen i (s0.withDead f u) · ops onOk' onFail') := by
  intro g v s
  have hsink : (s.withDead g v).sink = s.sink := rfl
  simp only [offerThen, hsink]
  obtain ⟨p, stop⟩ := sinkOffer ops s.sink
  cases stop with
  | accepted => exact hOk g v { s with sink := p }
  | failed => exact hFail g v { s with sink := p }
  | unanswered => rfl

/-! ## The commands that talk to the sink -/

theorem startSession_visible (own : Bool) (f : FrameUnit) (u : LzwUnit) (s : State) :
    visiblePart (startSession own (s.withDead f u) (clearSticky (s.withDead f u)))
      = visiblePart (startSession own s (clearSticky s)) :=
  have hsignature := offerThen_sameEffect (.start own) f u s (sinkWrites signatureBytes)
    (onOk := fun s2 => finishCmd .ok { s2 with lifecycle := .startedFirst })
    (onOk' := fun s2 => finishCmd .ok { s2 with lifecycle := .startedFirst })
    (fun _ _ _ => rfl) (raiseCause_sameEffect .sinkError)
  offerThen_sameEffect (.start own) f u s (openOps own) (fun g v s1 => hsignature g v { s1 with ownSink := own })
    (raiseCause_sameEffect .sinkError) f u (clearSticky s)

theorem finishSession_visible (f : FrameUnit) (u : LzwUnit) (s : State) :
    visiblePart (finishSession (s.withDead f u)) = visiblePart (finishSession s) :=
  offerThen_sameEffect .finish f u s (finishOps s.ownSink) (fun _ _ _ => rfl) (fun _ _ _ => rfl) f u
    { s with lifecycle := .finished }

theorem adoptSize_withDead (fw fh : Half) (f : FrameUnit) (u : LzwUnit) (s : State) :
    adoptSize fw fh (s.withDead f u) = (adoptSize fw fh s).withDead f u := by
  rw [adoptSize, adoptSize, apply_ite (State.withDead f u)]
  rfl

/-- Indexing writes all the PaletteIndexer's memories and reads none of them (41_palette_indexer R126). -/
theorem indexFrame_withDead (fw fh : Nat) (f : FrameUnit) (u : LzwUnit) (s : State) :
    indexFrame fw fh (s.withDead f u) = (indexFrame fw fh s).withDead (indexFrame fw fh s).frame u := rfl

/-- Finding the transparent index does not read the LZW unit. -/
theorem findTransparent_withDead (u : LzwUnit) (s : State) :
    findTransparent (s.withDead s.frame u) = (findTransparent s).withDead s.frame u := by
  rw [findTransparent, findTransparent, apply_ite (State.withDead s.frame u)]
  rfl

/-- Steps 1 to 3 keep nothing of the PaletteIndexer's memories before them. -/
theorem prepareFrame_withDead (f : FrameUnit) (u : LzwUnit) (s : State) :
    prepareFrame (s.withDead f u) = (prepareFrame s).withDead (prepareFrame s).frame u := by
  rw [prepareFrame_frame, prepareFrame, adoptSize_withDead, indexFrame_withDead, findTransparent_withDead]
  rfl

/-- The bytes of a frame do not depend on the LZW unit before it (10_state R39, R40). -/
theorem compressFrame_bytes (u : LzwUnit) (s : State) :
    (compressFrame (s.withDead s.frame u)).2 = (compressFrame s).2 :=
  congrArg (BitVec.ofNat 8 (minCodeSize Config.colorDepth) :: · ++ [0x00#8]) (lzwCompress_bytes _ s.frame.indexBuf s.lzw u)

theorem submitFrame_visible (f : FrameUnit) (u : LzwUnit) (s : State) :
    visiblePart (submitFrame (s.withDead f u) (prepareFrame (s.withDead f u)))
      = visiblePart (submitFrame s (prepareFrame s)) := by
  rw [prepareFrame_withDead, submitFrame, submitFrame, compressFrame_bytes]
  exact offerThen_sameEffect .addFrame f u s _ completeFrame_sameEffect (raiseCause_sameEffect .sinkError) _ _
    { prepareFrame s with lzw := (compressFrame (prepareFrame s)).1 }

/-! ## All commands -/

/-- Settles O52: the configuration commands reach no dead memory, and the three that talk to the sink offer the same operations
from either state. -/
theorem deadMemoriesAreUnobservable : Obligations.DeadMemoriesAreUnobservable := by
  intro i s f u
  change visibleOutcome (exec i (s.withDead f u)) = visibleOutcome (exec i s)
  cases i with
  | start own =>
    rw [exec_start, exec_start, execStart, execStart]
    have hstarted : (s.withDead f u).started = s.started := rfl
    have hpresent : (s.withDead f u).sink.present = s.sink.present := rfl
    rw [hstarted, hpresent]
    split
    · rfl
    · split
      · rfl
      · exact congrArg Host.Outcome.next (startSession_visible own f u s)
  | addFrame =>
    have hrefused : addFrameRefused (s.withDead f u) = addFrameRefused s := rfl
    rw [exec_addFrame, exec_addFrame, execAddFrame, execAddFrame, hrefused]
    split
    · rfl
    · exact congrArg Host.Outcome.next (submitFrame_visible f u s)
  | finish =>
    have hstarted : (s.withDead f u).started = s.started := rfl
    rw [exec_finish, exec_finish, execFinish, execFinish, hstarted]
    split
    · exact congrArg Host.Outcome.next (finishSession_visible f u s)
    · rfl
  | setSize =>
    have hstate : (s.withDead f u).lifecycle = s.lifecycle := rfl
    rw [exec_setSize, exec_setSize, execSetSize, execSetSize, hstate]
    split <;> rfl
  | setDelay | setRepeat | setDispose | setTransparent | clearTransparent | setQuality => rfl

end Sys2Proof.Machine
end

section
/-! PROOFS. The three functions of the PaletteIndexer, element by element: which pixel PIX holds, which bits USED holds, which entry
the search for the transparent index ends at (41_palette_indexer R120 to R125). -/

namespace Sys2Proof.Machine

/-! ## Re-formatting (R122) -/

/-- A row-major table of `w` columns holds the element of column `x` and row `y` at index `y * w + x`. -/
theorem getElem?_rowMajor {α : Type} (g : Nat → Nat → α) {w h x y : Nat} (hx : x < w) (hy : y < h) :
    ((List.range h).flatMap fun y => (List.range w).map fun x => g x y)[y * w + x]? = some (g x y) := by
  induction h with
  | zero => omega
  | succ h ih =>
    have hlen : ((List.range h).flatMap fun y => (List.range w).map fun x => g x y).length = h * w := by simp
    rw [List.range_succ, List.flatMap_append, List.flatMap_singleton]
    rcases Nat.lt_succ_iff_lt_or_eq.mp hy with hlt | rfl
    · have hrow : y * w + x < h * w := by
        calc y * w + x < y * w + w := by omega
          _ = (y + 1) * w := by ring
          _ ≤ h * w := Nat.mul_le_mul_right w hlt
      rw [List.getElem?_append_left (hlen ▸ hrow)]
      exact ih hlt
    · rw [List.getElem?_append_right (by omega), hlen, Nat.add_sub_cancel_left]
      simp [hx]

/-- Settles O32: the pixels stand in row-major order, and `reformatPixel` tells the frame from the padding. -/
theorem reformatCropsAndPads : Obligations.ReformatCropsAndPads :=
  fun m fw fh w h => ⟨reformat_length m fw fh w h, fun _ _ hx hy => getElem?_rowMajor (reformatPixel m fw fh) hx hy⟩

/-! ## The used bitmap (R123) -/

theorem getLsbD_one_shiftLeft_byte (j k : Byte) : (1#256 <<< j.toNat).getLsbD k.toNat = true ↔ j = k := by
  have hk := k.isLt
  simp [← BitVec.toNat_inj]
  omega

theorem getLsbD_usedBitmap (indices : List Byte) (k : Byte) : (usedBitmap indices).getLsbD k.toNat = true ↔ k ∈ indices := by
  suffices H : ∀ u : BitVec 256, (indices.foldl (fun u k => u ||| (1#256 <<< k.toNat)) u).getLsbD k.toNat = true ↔
      u.getLsbD k.toNat = true ∨ k ∈ indices by
    simpa [usedBitmap] using H 0#256
  induction indices with
  | nil => simp
  | cons j indices ih =>
    intro u
    rw [List.foldl_cons, ih, BitVec.getLsbD_or, Bool.or_eq_true, getLsbD_one_shiftLeft_byte, List.mem_cons, or_assoc,
      eq_comm (a := j)]

/-- Settles O34: the memories are those the model writes; the entries are counted by `answerPalette` and the bits of USED are the
indices listed in INDEX_BUF. -/
theorem indexFrameMapsEveryPixel : Obligations.IndexFrameMapsEveryPixel := by
  intro s fw fh t q
  have hpositive : 1 ≤ (answerPalette q).length := by simp [answerPalette, Config.paletteEntries]
  have hmost : (answerPalette q).length ≤ 256 := List.length_take_le ..
  refine ⟨rfl, rfl, rfl, hpositive, hmost, List.length_map _, fun i p hp => ?_, fun k => ?_, rfl⟩
  · exact List.getElem?_map.trans (congrArg (Option.map (answerMap q)) hp)
  · exact (getLsbD_usedBitmap _ k).trans List.mem_map

/-! ## The nearest used entry (R125) -/

/-- The squared distance is the sum of squares itself, which is never negative. -/
theorem colourDistance_cast (t p : Rgb) :
    (colourDistance t p : Int) = ((t.r.toNat : Int) - p.r.toNat) ^ 2 + ((t.g.toNat : Int) - p.g.toNat) ^ 2
      + ((t.b.toNat : Int) - p.b.toNat) ^ 2 :=
  Int.toNat_of_nonneg (by positivity)

theorem byte_difference_sq_le (a b : Byte) : ((a.toNat : Int) - b.toNat) ^ 2 ≤ 255 ^ 2 := by
  have ha := a.isLt
  have hb := b.isLt
  exact sq_le_sq' (by omega) (by omega)

/-- Every distance is below the start value 2^24 of the search. -/
theorem colourDistance_lt (t p : Rgb) : colourDistance t p < 2 ^ 24 := by
  have hr := byte_difference_sq_le t.r p.r
  have hg := byte_difference_sq_le t.g p.g
  have hb := byte_difference_sq_le t.b p.b
  have hcast := colourDistance_cast t p
  omega

/-- Of the entries `pal`, whose indices count from `i`, the one at `i + j` is `best`: used, nearest to `t`, and the first of the
nearest. -/
structure IsNearestFrom (t : Rgb) (used : BitVec 256) (pal : List Rgb) (i j : Nat) (best : Rgb) : Prop where
  entry : pal[j]? = some best
  isUsed : used.getLsbD (i + j) = true
  least : ∀ (k : Nat) (p : Rgb), pal[k]? = some p → used.getLsbD (i + k) = true →
    colourDistance t best ≤ colourDistance t p ∧ (colourDistance t best = colourDistance t p → j ≤ k)

/-- An entry before the nearest one changes nothing unless it is used and as near. -/
theorem IsNearestFrom.cons {t : Rgb} {used : BitVec 256} {pal : List Rgb} {i j : Nat} {best p : Rgb}
    (h : IsNearestFrom t used pal (i + 1) j best)
    (hp : used.getLsbD i = true → colourDistance t best < colourDistance t p) :
    IsNearestFrom t used (p :: pal) i (j + 1) best where
  entry := h.entry
  isUsed := by rw [← h.isUsed, Nat.add_right_comm, Nat.add_assoc]
  least k q hq hk := by
    cases k with
    | zero =>
      obtain rfl : p = q := Option.some.inj hq
      have hlt := hp hk
      exact ⟨hlt.le, fun heq => absurd heq hlt.ne⟩
    | succ k =>
      obtain ⟨hle, hfirst⟩ := h.least k q hq (by rwa [Nat.add_right_comm, Nat.add_assoc])
      exact ⟨hle, fun heq => Nat.succ_le_succ (hfirst heq)⟩

/-- The search ends where it began when no used entry is nearer than `dmin`, else at the first of the nearest used entries. -/
theorem scanNearest_cases (t : Rgb) (used : BitVec 256) (pal : List Rgb) (i dmin minpos : Nat) :
    (scanNearest t used pal i dmin minpos = minpos ∧
      ∀ (k : Nat) (p : Rgb), pal[k]? = some p → used.getLsbD (i + k) = true → dmin ≤ colourDistance t p) ∨
    ∃ j best, scanNearest t used pal i dmin minpos = i + j ∧ IsNearestFrom t used pal i j best ∧
      colourDistance t best < dmin := by
  induction pal generalizing i dmin minpos with
  | nil => exact .inl ⟨rfl, fun _ _ h => by cases h⟩
  | cons p pal ih =>
    rw [scanNearest]
    split
    next hnear =>
      obtain ⟨hused, hlt⟩ := hnear
      rcases ih (i + 1) (colourDistance t p) i with ⟨hend, hfar⟩ | ⟨j, best, hend, hbest, hnearer⟩
      · refine .inr ⟨0, p, hend, ⟨rfl, hused, fun k q hq hk => ⟨?_, fun _ => Nat.zero_le k⟩⟩, hlt⟩
        cases k with
        | zero => exact (congrArg (colourDistance t) (Option.some.inj hq)).le
        | succ k => exact hfar k q hq (by rwa [Nat.add_right_comm, Nat.add_assoc])
      · exact .inr ⟨j + 1, best, by omega, hbest.cons fun _ => hnearer, hnearer.trans hlt⟩
    next hfarther =>
      have hp : used.getLsbD i = true → dmin ≤ colourDistance t p := fun hused =>
        Nat.le_of_not_lt fun hlt => hfarther ⟨hused, hlt⟩
      rcases ih (i + 1) dmin minpos with ⟨hend, hfar⟩ | ⟨j, best, hend, hbest, hnearer⟩
      · refine .inl ⟨hend, fun k q hq hk => ?_⟩
        cases k with
        | zero => exact Option.some.inj hq ▸ hp hk
        | succ k => exact hfar k q hq (by rwa [Nat.add_right_comm, Nat.add_assoc])
      · exact .inr ⟨j + 1, best, by omega, hbest.cons fun hused => hnearer.trans_le (hp hused), hnearer⟩

/-- The search from 2^24 ends at 0 exactly as R125 says, or at the nearest used entry, whose index fits a byte. -/
theorem nearestUsed_isNearestUsed (t : Rgb) (used : BitVec 256) {pal : List Rgb} (hlen : pal.length ≤ 256) :
    isNearestUsed t used pal (BitVec.ofNat 8 (nearestUsed t used pal)) := by
  rw [nearestUsed]
  rcases scanNearest_cases t used pal 0 (2 ^ 24) 0 with ⟨hend, hfar⟩ | ⟨j, best, hend, ⟨hentry, hused, hleast⟩, -⟩
  · have hnone : ∀ (i : Nat) (p : Rgb), pal[i]? = some p → used.getLsbD i = true → False := fun i p hp hi =>
      (colourDistance_lt t p).not_ge (hfar i p hp (by rwa [Nat.zero_add]))
    rw [hend]
    exact ⟨fun _ => rfl, fun i p hp hi => (hnone i p hp hi).elim⟩
  · rw [Nat.zero_add] at hend hused
    have hj : j < pal.length := (List.getElem?_eq_some_iff.mp hentry).1
    have hbyte : (BitVec.ofNat 8 j).toNat = j := Nat.mod_eq_of_lt (hj.trans_le hlen)
    rw [hend]
    refine ⟨fun hunused => ?_, fun i p hp hi => ⟨best, by rw [hbyte, hentry], by rw [hbyte, hused], ?_⟩⟩
    · exact absurd hused (by simp [hunused j best hentry])
    · simp only [← colourDistance_cast, hbyte, Nat.cast_le, Nat.cast_inj]
      exact hleast i p hp (by rwa [Nat.zero_add])

/-- Settles O35: without VALID nothing is written; with it TRANS_INDEX is the entry that the search ends at, and the
whole palette is searched. -/
theorem transparentIndexIsTheNearestUsedEntry : Obligations.TransparentIndexIsTheNearestUsedEntry := by
  intro s hlen hmost t
  refine ⟨fun hvalid => by simp [t, findTransparent, hvalid], fun hvalid => ⟨findTransparent_eq s, ?_⟩⟩
  have hindex : t.transIndex = BitVec.ofNat 8 (nearestUsed s.transp.colour s.frame.used s.frame.pal) := by
    simp [t, findTransparent, hvalid, hlen]
  rw [hindex]
  exact nearestUsed_isNearestUsed _ _ (hlen ▸ hmost)

end Sys2Proof.Machine
end

section
/-! PROOFS. LOOKUP ends at the pair's key or at an EMPTY slot (42_lzw R146, R147): the secondary probe visits every slot, because
HSIZE is prime, and a table that is not full has an EMPTY one. -/

namespace Sys2Proof.Machine

/-! ## The slots that the probe visits (R147) -/

theorem nextSlot_eq_mod {i disp : Nat} (hi : i < 5003) (h1 : 1 ≤ disp) (h2 : disp ≤ 5003) :
    nextSlot i disp = (i + (5003 - disp)) % 5003 := by
  rw [nextSlot, Config.hsize]
  split <;> omega

theorem nextSlot_iterate {i disp : Nat} (hi : i < 5003) (h1 : 1 ≤ disp) (h2 : disp ≤ 5003) (k : Nat) :
    (nextSlot · disp)^[k] i = (i + (5003 - disp) * k) % 5003 := by
  induction k with
  | zero => simp [Nat.mod_eq_of_lt hi]
  | succ k ih =>
    rw [Function.iterate_succ_apply', ih, nextSlot_eq_mod (Nat.mod_lt _ (by decide)) h1 h2, Nat.mod_add_mod, Nat.mul_succ,
      Nat.add_assoc]

/-- Of the 5003 slots after `i` every slot of the table is one, `i` itself the last. -/
theorem nextSlot_reaches {i disp slot : Nat} (hi : i < 5003) (h1 : 1 ≤ disp) (h2 : disp < 5003) (hslot : slot < 5003) :
    ∃ k < 5003, (nextSlot · disp)^[k + 1] i = slot := by
  have hcoprime : Nat.Coprime (5003 - disp) 5003 :=
    (Nat.coprime_of_lt_prime (by omega) (by omega) (by norm_num : Nat.Prime 5003)).symm
  obtain ⟨k, hk, hmod⟩ := Nat.exists_mul_mod_eq_of_coprime (slot + 2 * 5003 - i - (5003 - disp)) hcoprime (by decide)
  refine ⟨k, hk, ?_⟩
  rw [nextSlot_iterate hi h1 h2.le, Nat.mul_succ]
  omega

/-- A table with fewer than 5003 entries has an EMPTY slot. -/
theorem exists_empty_slot {m : List (Nat × Nat)} (hlen : m.length < 5003) : ∃ slot < 5003, cellsGet m slot = none := by
  have hcard : (m.map Prod.fst).toFinset.card < (Finset.range 5003).card := by
    rw [Finset.card_range]
    exact (List.toFinset_card_le _).trans_lt (by rwa [List.length_map])
  obtain ⟨slot, hslot, hnot⟩ := Finset.exists_mem_notMem_of_card_lt_card hcard
  refine ⟨slot, Finset.mem_range.mp hslot, ?_⟩
  cases hget : cellsGet m slot with
  | none => rfl
  | some key => exact absurd (List.mem_toFinset.mpr (List.mem_map_of_mem (mem_of_cellsGet hget))) hnot

/-! ## What a lookup answers (R146, R147) -/

/-- The answer is a slot that holds the key, with the code listed there, or an EMPTY slot. -/
def Lookup.Answers (u : LzwUnit) (key : Nat) : Lookup → Prop
  | .hit slot code => slot < 5003 ∧ cellsGet u.htab slot = some key ∧ code = codeAt u slot
  | .miss slot => slot < 5003 ∧ cellsGet u.htab slot = none

/-- A probe with an EMPTY slot ahead ends there at the latest. -/
theorem secondaryProbe_answers {u : LzwUnit} {key disp : Nat} (h1 : 1 ≤ disp) (h2 : disp < 5003) {fuel k i : Nat}
    (hk : k < fuel) (hi : i < 5003) (hempty : cellsGet u.htab ((nextSlot · disp)^[k + 1] i) = none) :
    (secondaryProbe u key disp fuel i).Answers u key := by
  induction fuel generalizing k i with
  | zero => omega
  | succ fuel ih =>
    have hnext := nextSlot_lt hi h1 h2.le
    rw [secondaryProbe]
    split
    next hnone => exact ⟨hnext, hnone⟩
    next other hother =>
      split
      next heq => exact ⟨hnext, heq ▸ hother, rfl⟩
      next =>
        cases k with
        | zero => exact absurd (hempty.symm.trans hother) (by simp)
        | succ k => exact ih (Nat.lt_of_succ_lt_succ hk) hnext hempty

theorem probeStep_lt {i : Nat} (hi : i < 5003) : probeStep i < 5003 := by
  rw [probeStep, Config.hsize]
  split <;> omega

theorem lookupPair_answers {u : LzwUnit} {c : Nat} (hlen : u.htab.length < 5003) (hent : u.ent < 4096) (hc : c < 256) :
    (lookupPair u c).Answers u (pairKey u.ent c) := by
  have hslot : primarySlot u.ent c < 5003 := (primarySlot_lt hent hc).trans (by decide)
  rw [lookupPair]
  split
  next hnone => exact ⟨hslot, hnone⟩
  next other hother =>
    split
    next heq => exact ⟨hslot, heq ▸ hother, rfl⟩
    next =>
      have hstep := (probeStep_bounds hslot).1
      obtain ⟨empty, hempty, hnone⟩ := exists_empty_slot hlen
      obtain ⟨k, hk, hreach⟩ := nextSlot_reaches hslot hstep (probeStep_lt hslot) hempty
      exact secondaryProbe_answers hstep (probeStep_lt hslot) hk hslot (hreach ▸ hnone)

theorem pairKey_eq (ent c : Nat) : pairKey ent c = 4096 * c + ent := by
  rw [pairKey, Nat.shiftLeft_eq]
  omega

/-- Settles O41: the answer of `lookupPair_answers`, read with CODETAB's slot written or not. -/
theorem lookupEndsAtTheKeyOrAnEmptySlot : Obligations.LookupEndsAtTheKeyOrAnEmptySlot := by
  intro u c _ _ hlen hent hc
  have hanswer := lookupPair_answers hlen hent hc
  rw [pairKey_eq] at hanswer
  cases hlookup : lookupPair u c with
  | miss slot => rwa [hlookup] at hanswer
  | hit slot code =>
    rw [hlookup] at hanswer
    obtain ⟨hslot, hkey, hcode⟩ := hanswer
    rw [codeAt] at hcode
    cases hget : cellsGet u.codetab slot with
    | none => exact .inr ⟨hslot, hkey, hget, by simpa [hget] using hcode⟩
    | some listed => exact .inl ⟨hslot, hkey, by simp [hget, hcode]⟩

end Sys2Proof.Machine
end

section
/-! PROOFS. What the code output of the LZW unit emits, now and later, as one function of the pending bits and the bits to come
(42_lzw R152, R153, R155 to R157): it packs codes and cuts sub-blocks as the reference does. -/

namespace Sys2Proof.Machine

/-! ## Sub-blocks (R156, R157) -/

/-- The sub-blocks that `packRegion` cuts the bytes into. -/
def blocksOf (bytes : List Byte) : List Byte := subBlocks bytes.length bytes

theorem subBlocks_fuel {m n : Nat} {bytes : List Byte} (hm : bytes.length ≤ m) (hn : bytes.length ≤ n) :
    subBlocks m bytes = subBlocks n bytes := by
  induction m generalizing n bytes with
  | zero =>
    obtain rfl := List.eq_nil_of_length_eq_zero (Nat.le_zero.mp hm)
    cases n <;> rfl
  | succ m ih =>
    cases bytes with
    | nil => cases n <;> rfl
    | cons b rest =>
      rw [List.length_cons] at hm hn
      obtain ⟨n, rfl⟩ := Nat.exists_eq_add_of_le' (Nat.one_le_of_lt hn)
      have hdrop : ((b :: rest).drop 254).length ≤ rest.length := by simp
      rw [subBlocks, subBlocks, ih (n := n) (by omega) (by omega)]

@[simp] theorem blocksOf_nil : blocksOf [] = [] := rfl

theorem blocksOf_of_ne_nil {bytes : List Byte} (h : bytes ≠ []) :
    blocksOf bytes = BitVec.ofNat 8 (bytes.take 254).length :: bytes.take 254 ++ blocksOf (bytes.drop 254) := by
  cases bytes with
  | nil => exact absurd rfl h
  | cons b rest =>
    rw [blocksOf, List.length_cons, subBlocks, blocksOf, subBlocks_fuel (m := rest.length) (by simp) le_rfl]

theorem blocksOf_of_short {bytes : List Byte} (h : bytes ≠ []) (hlen : bytes.length ≤ 254) :
    blocksOf bytes = BitVec.ofNat 8 bytes.length :: bytes := by
  rw [blocksOf_of_ne_nil h, List.take_of_length_le hlen, List.drop_of_length_le hlen, blocksOf_nil, List.append_nil]

theorem blocksOf_append_full {full : List Byte} (h : full.length = 254) (bytes : List Byte) :
    blocksOf (full ++ bytes) = 254#8 :: full ++ blocksOf bytes := by
  have hne : full ++ bytes ≠ [] := by
    rintro hnil
    simp [List.append_eq_nil_iff.mp hnil] at h
  rw [blocksOf_of_ne_nil hne, List.take_left' h, List.drop_left' h, h]

/-- A byte added to the buffer leaves the sub-blocks of all bytes as they are, emitted or still to come. -/
theorem charOut_blocks {u : LzwUnit} (h : u.sbBuf.length < 254) (b : Byte) (bytes : List Byte) :
    (charOut b u).2 ++ blocksOf ((charOut b u).1.sbBuf ++ bytes) = blocksOf (u.sbBuf ++ b :: bytes) := by
  rw [List.append_cons u.sbBuf]
  rcases charOut_cases b u with ⟨-, hout⟩ | ⟨hfull, hout⟩ <;> rw [hout]
  · rfl
  · have hlen : u.sbBuf.length + 1 = 254 := by omega
    have hlen' : (u.sbBuf ++ [b]).length = 254 := by rw [List.length_append, List.length_singleton, hlen]
    rw [blocksOf_append_full hlen', hlen]
    rfl

theorem flushChar_blocks {u : LzwUnit} (h : u.sbBuf.length ≤ 254) : (flushChar u).2 = blocksOf u.sbBuf := by
  rw [flushChar, LzwUnit.sbCount]
  split
  next hpos => exact (blocksOf_of_short (List.ne_nil_of_length_pos hpos) h).symm
  next hzero => rw [List.eq_nil_of_length_eq_zero (Nat.eq_zero_of_not_pos hzero), blocksOf_nil]

/-! ## Numbers, bits, bytes (20_memory R64) -/

/-- The low `width` bits of a number, least significant first. -/
def numBits (width x : Nat) : List Bool := (List.range width).map x.testBit

@[simp] theorem numBits_length (width x : Nat) : (numBits width x).length = width := by simp [numBits]

@[simp] theorem numBits_zero (x : Nat) : numBits 0 x = [] := rfl

theorem numBits_add (m n x : Nat) : numBits (m + n) x = numBits m x ++ numBits n (x >>> m) := by
  rw [numBits, List.range_add, List.map_append, List.map_map, numBits, numBits]
  congr 2
  funext i
  rw [Function.comp_apply, Nat.testBit_shiftRight]

theorem bitsValue_numBits (width x : Nat) : bitsValue (numBits width x) = x % 2 ^ width := by
  induction width generalizing x with
  | zero => rw [numBits_zero, bitsValue, Nat.pow_zero, Nat.mod_one]
  | succ width ih =>
    have hbit : numBits 1 x = [x.testBit 0] := rfl
    rw [Nat.add_comm, numBits_add, hbit, List.singleton_append, bitsValue, ih, Nat.pow_add, Nat.mod_mul, Nat.testBit_zero,
      Nat.shiftRight_eq_div_pow]
    rcases Nat.mod_two_eq_zero_or_one x with h | h <;> simp [h]

@[simp] theorem codeBits_nil : codeBits [] = [] := rfl

theorem codeBits_cons (code width : Nat) (codes : List (Nat × Nat)) :
    codeBits ((code, width) :: codes) = numBits width code ++ codeBits codes := rfl

theorem codeBits_append (codes codes' : List (Nat × Nat)) : codeBits (codes ++ codes') = codeBits codes ++ codeBits codes' :=
  List.flatMap_append

theorem packBytes_append {byte : List Bool} (h : byte.length = 8) (bits : List Bool) :
    packBytes (byte ++ bits) = BitVec.ofNat 8 (bitsValue byte) :: packBytes bits := by
  match byte, h with
  | [b0, b1, b2, b3, b4, b5, b6, b7], _ => rfl

theorem packBytes_numBits_append (x : Nat) (bits : List Bool) :
    packBytes (numBits 8 x ++ bits) = BitVec.ofNat 8 x :: packBytes bits := by
  rw [packBytes_append (numBits_length 8 x), bitsValue_numBits]
  congr 1
  exact BitVec.eq_of_toNat_eq (by simp)

theorem packBytes_of_short {bits : List Bool} (hne : bits ≠ []) (hlen : bits.length < 8) :
    packBytes bits = [BitVec.ofNat 8 (bitsValue bits)] := by
  unfold packBytes
  split
  · exact absurd rfl hne
  · simp only [List.length_cons] at hlen; omega
  · rfl

/-! ## The accumulator (R152, R153) -/

/-- The bits in the accumulator that are not yet in a byte. -/
def LzwUnit.pending (u : LzwUnit) : List Bool := numBits u.accBits u.acc

/-- The bytes that the output still emits, when these bits follow the pending ones and nothing after them. -/
def LzwUnit.future (u : LzwUnit) (bits : List Bool) : List Byte := blocksOf (u.sbBuf ++ packBytes (u.pending ++ bits))

/-- The accumulator holds its pending bits, less than a byte, and nothing above them, and the sub-block is not full. -/
structure LzwUnit.OutputReady (u : LzwUnit) : Prop where
  acc : u.acc < 2 ^ u.accBits
  accBits : u.accBits < 8
  sbBuf : u.sbBuf.length < 254

theorem packCode_pending (code : Nat) (u : LzwUnit) : (packCode code u).pending = u.pending ++ numBits u.nbits code := by
  refine (numBits_add u.accBits u.nbits _).trans ?_
  congr 1
  · refine List.map_congr_left fun i hi => ?_
    have hlt := List.mem_range.mp hi
    simp [packCode, Nat.testBit_shiftLeft, hlt]
  · refine List.map_congr_left fun i _ => ?_
    simp [packCode, Nat.testBit_shiftLeft]

theorem packCode_future (code : Nat) (u : LzwUnit) (bits : List Bool) :
    (packCode code u).future bits = u.future (numBits u.nbits code ++ bits) := by
  rw [LzwUnit.future, packCode_pending, List.append_assoc]
  rfl

theorem packCode_acc_lt_two_pow {code : Nat} {u : LzwUnit} (hcode : code < 2 ^ u.nbits) :
    (packCode code u).acc < 2 ^ (packCode code u).accBits := by
  have hpos : 0 < 2 ^ u.accBits := Nat.two_pow_pos _
  have hle : 2 ^ u.accBits ≤ 2 ^ (u.accBits + u.nbits) := Nat.pow_le_pow_right (by decide) (by omega)
  have hlow : u.acc &&& (2 ^ u.accBits - 1) ≤ 2 ^ u.accBits - 1 := Nat.and_le_right
  have hhigh : code <<< u.accBits < 2 ^ (u.accBits + u.nbits) := by
    rw [Nat.shiftLeft_eq, Nat.add_comm, Nat.pow_add]
    exact Nat.mul_lt_mul_of_pos_right hcode hpos
  exact Nat.or_lt_two_pow (hlow.trans_lt (Nat.sub_one_lt_of_le hpos hle)) hhigh

/-- One round of draining (R153): the low byte of ACC moves to the sub-block. -/
def drainByte (u : LzwUnit) : LzwUnit × List Byte :=
  let r := charOut (BitVec.ofNat 8 (u.acc &&& 0xFF)) u
  ({ r.1 with acc := r.1.acc >>> 8, accBits := r.1.accBits - 8 }, r.2)

theorem drainBytes_succ (k : Nat) (u : LzwUnit) :
    drainBytes (k + 1) u
      = ((drainBytes k (drainByte u).1).1, (drainByte u).2 ++ (drainBytes k (drainByte u).1).2) := rfl

theorem drainByte_accBits (u : LzwUnit) : (drainByte u).1.accBits = u.accBits - 8 := by
  rw [drainByte]
  dsimp only
  rw [charOut_eq]

theorem drainByte_pending (u : LzwUnit) : (drainByte u).1.pending = numBits (u.accBits - 8) (u.acc >>> 8) := by
  rw [LzwUnit.pending, drainByte_accBits, drainByte]
  dsimp only
  rw [charOut_eq]

theorem drainByte_short (u : LzwUnit) : (drainByte u).1.sbBuf.length < 254 := charOut_short _ u

theorem ofNat_and_lowByte (x : Nat) : BitVec.ofNat 8 (x &&& 0xFF) = BitVec.ofNat 8 x :=
  BitVec.eq_of_toNat_eq (by simp [Nat.and_two_pow_sub_one_eq_mod x 8])

theorem drainByte_blocks {u : LzwUnit} (h : u.sbBuf.length < 254) (bytes : List Byte) :
    (drainByte u).2 ++ blocksOf ((drainByte u).1.sbBuf ++ bytes) = blocksOf (u.sbBuf ++ BitVec.ofNat 8 u.acc :: bytes) := by
  rw [← ofNat_and_lowByte]
  exact charOut_blocks h _ bytes

theorem drainByte_future {u : LzwUnit} (hbits : 8 ≤ u.accBits) (h : u.sbBuf.length < 254) (bits : List Bool) :
    (drainByte u).2 ++ (drainByte u).1.future bits = u.future bits := by
  have hpending : u.pending = numBits 8 u.acc ++ (drainByte u).1.pending := by
    rw [drainByte_pending, ← numBits_add, Nat.add_sub_cancel' hbits]
    rfl
  rw [LzwUnit.future, LzwUnit.future, hpending, List.append_assoc, packBytes_numBits_append, drainByte_blocks h]

/-- Whole bytes moved out are emitted or wait in the sub-block buffer. -/
theorem drainBytes_future {k : Nat} {u : LzwUnit} (hk : 8 * k ≤ u.accBits) (h : u.sbBuf.length < 254) (bits : List Bool) :
    (drainBytes k u).2 ++ (drainBytes k u).1.future bits = u.future bits := by
  induction k generalizing u with
  | zero => rfl
  | succ k ih =>
    have hround := drainByte_accBits u
    rw [drainBytes_succ, List.append_assoc, ih (by omega) (drainByte_short u), drainByte_future (by omega) h]

theorem drainWhole_packCode_ready {code : Nat} {u : LzwUnit} (h : u.OutputReady) (hcode : code < 2 ^ u.nbits) :
    (drainWhole (packCode code u)).1.OutputReady where
  acc := by
    rw [drainWhole, drainBytes_eq]
    dsimp only
    rw [Nat.shiftRight_eq_div_pow, Nat.div_lt_iff_lt_mul (Nat.two_pow_pos _), ← Nat.pow_add,
      Nat.sub_add_cancel (Nat.mul_div_le ..)]
    exact packCode_acc_lt_two_pow hcode
  accBits := by
    rw [drainWhole, drainBytes_eq]
    dsimp only
    omega
  sbBuf := drainBytes_sbCount_lt _ h.sbBuf

/-- The last flush emits all that is pending, the last byte padded with zero bits (R155). -/
theorem finalFlush_bytes {u : LzwUnit} (h : u.OutputReady) : (finalFlush u).2 = u.future [] := by
  have hbits := h.accBits
  rw [finalFlush, LzwUnit.future, List.append_nil]
  dsimp only
  rcases Nat.eq_zero_or_pos u.accBits with hzero | hpos
  · have hnone : u.pending = [] := by rw [LzwUnit.pending, hzero, numBits_zero]
    rw [hnone, hzero, packBytes, List.append_nil]
    exact flushChar_blocks h.sbBuf.le
  · have hlen : u.pending.length = u.accBits := numBits_length ..
    have hbyte : packBytes u.pending = [BitVec.ofNat 8 u.acc] := by
      rw [packBytes_of_short (List.ne_nil_of_length_pos (hlen ▸ hpos)) (hlen ▸ hbits), LzwUnit.pending, bitsValue_numBits,
        Nat.mod_eq_of_lt h.acc]
    rw [hbyte, show (u.accBits + 7) / 8 = 0 + 1 by omega, drainBytes_succ, drainBytes]
    dsimp only
    rw [List.append_nil, flushChar_blocks (drainByte_short u).le, ← drainByte_blocks h.sbBuf, List.append_nil]

/-! ## One code (R152 to R155) -/

/-- The outcome `r` of a subroutine run from `u` emits the codes: whatever bits come behind them, the bytes of
all are the same. -/
def Emits (u : LzwUnit) (codes : List (Nat × Nat)) (r : LzwUnit × List Byte) : Prop :=
  ∀ bits, r.2 ++ r.1.future bits = u.future (codeBits codes ++ bits)

theorem Emits.append {u : LzwUnit} {codes codes' : List (Nat × Nat)} {r q : LzwUnit × List Byte} (hr : Emits u codes r)
    (hq : Emits r.1 codes' q) : Emits u (codes ++ codes') (q.1, r.2 ++ q.2) := by
  intro bits
  rw [List.append_assoc, hq, hr, codeBits_append, List.append_assoc]

theorem updateWidth_future (u : LzwUnit) (bits : List Bool) : (updateWidth u).future bits = u.future bits := by
  rcases updateWidth_eq u with h | h <;> rw [h]
  rfl

theorem updateWidth_ready {u : LzwUnit} (h : u.OutputReady) : (updateWidth u).OutputReady := by
  rcases updateWidth_eq u with hu | hu <;> rw [hu]
  · exact ⟨h.acc, h.accBits, h.sbBuf⟩
  · exact h

theorem drainWhole_packCode_future {u : LzwUnit} (h : u.OutputReady) (code : Nat) (bits : List Bool) :
    (drainWhole (packCode code u)).2 ++ (drainWhole (packCode code u)).1.future bits
      = u.future (codeBits [(code, u.nbits)] ++ bits) := by
  rw [drainWhole, drainBytes_future (u := packCode code u) (Nat.mul_div_le ..) h.sbBuf, packCode_future, codeBits_cons,
    codeBits_nil, List.append_nil]

theorem updateWidth_drainWhole_eoi (code : Nat) (u : LzwUnit) : (updateWidth (drainWhole (packCode code u)).1).eoi = u.eoi :=
  (updateWidth_sameCodes _).eoi.trans (drainBytes_sameCodes _ _).eoi

theorem outputCode_of_ne_eoi {code : Nat} {u : LzwUnit} (h : code ≠ u.eoi) :
    outputCode code u = (updateWidth (drainWhole (packCode code u)).1, (drainWhole (packCode code u)).2) := by
  rw [outputCode, updateWidth_drainWhole_eoi, if_neg h]

theorem outputCode_ready {code : Nat} {u : LzwUnit} (h : u.OutputReady) (heoi : code ≠ u.eoi) (hcode : code < 2 ^ u.nbits) :
    (outputCode code u).1.OutputReady := by
  rw [outputCode_of_ne_eoi heoi]
  exact updateWidth_ready (drainWhole_packCode_ready h hcode)

theorem outputCode_emits {code : Nat} {u : LzwUnit} (h : u.OutputReady) (heoi : code ≠ u.eoi) :
    Emits u [(code, u.nbits)] (outputCode code u) := by
  intro bits
  rw [outputCode_of_ne_eoi heoi, updateWidth_future, drainWhole_packCode_future h]

/-- EOI emits all that is left. -/
theorem outputCode_eoi_bytes {u : LzwUnit} (h : u.OutputReady) (hcode : u.eoi < 2 ^ u.nbits) :
    (outputCode u.eoi u).2 = u.future (codeBits [(u.eoi, u.nbits)]) := by
  rw [outputCode, updateWidth_drainWhole_eoi, if_pos rfl]
  dsimp only
  rw [finalFlush_bytes (updateWidth_ready (drainWhole_packCode_ready h hcode)), updateWidth_future,
    drainWhole_packCode_future h, List.append_nil]

/-- But for the accumulator and the sub-block, a code other than EOI changes what updating the width changes. -/
theorem outputCode_eq {code : Nat} {u : LzwUnit} (h : code ≠ u.eoi) :
    (outputCode code u).1 = { updateWidth u with
      acc := (outputCode code u).1.acc, accBits := (outputCode code u).1.accBits, sbBuf := (outputCode code u).1.sbBuf } := by
  rw [outputCode_of_ne_eoi h, drainWhole, drainBytes_eq]
  unfold updateWidth packCode
  split
  next hwiden => split <;> rfl
  next => rfl

end Sys2Proof.Machine
end

section
/-! PROOFS. The abstract compressor (42_lzw R158): its invariant, an induction over its pixels, and the widths and the cadence of
its codes (R159, R163). -/

namespace Sys2Proof.Machine

/-! ## One pixel (R145, R148 to R150) -/

/-- The compressor right after a Clear, at the string of one symbol. -/
def AbsLzw.fresh (mcs symbol : Nat) : AbsLzw := { dict := [], free := 2 ^ mcs + 2, ent := symbol, width := mcs + 1 }

/-- The compressor after a miss while a code is free: the string's code emitted, the pair inserted. -/
def AbsLzw.inserted (c : Nat) (a : AbsLzw) : AbsLzw :=
  { absWiden a with dict := ((a.ent, c), a.free) :: a.dict, free := a.free + 1, ent := c }

theorem absWiden_eq (a : AbsLzw) : absWiden a = { a with width := (absWiden a).width } := by
  rw [absWiden]
  split <;> rfl

section
variable {mcs c : Nat} {a : AbsLzw}

theorem absPixel_of_hit {code : Nat} (h : assocGet a.dict (a.ent, c) = some code) :
    absPixel mcs c a = ({ a with ent := code }, []) := by
  rw [absPixel, h]

theorem absPixel_of_miss (h : assocGet a.dict (a.ent, c) = none) (hfree : a.free < 4096) :
    absPixel mcs c a = (a.inserted c, [(a.ent, a.width)]) := by
  rw [absPixel, h]
  exact if_pos hfree

theorem absPixel_of_full (h : assocGet a.dict (a.ent, c) = none) (hfull : ¬a.free < 4096) :
    absPixel mcs c a = (.fresh mcs c, [(a.ent, a.width), (2 ^ mcs, (absWiden a).width)]) := by
  rw [absPixel, h]
  exact if_neg hfull

end

/-! ## The invariant -/

/-- The free code and the width are in their ranges, every code below the free one fits the width, and the current string and
every entry of the dictionary have the code of a symbol or one given out since the last Clear. -/
structure AbsLzw.Fits (mcs : Nat) (a : AbsLzw) : Prop where
  freeLow : 2 ^ mcs + 2 ≤ a.free
  freeHigh : a.free ≤ 4096
  widthLow : mcs + 1 ≤ a.width
  widthHigh : a.width ≤ 12
  room : a.free ≤ 2 ^ a.width
  ent : a.ent < 2 ^ mcs ∨ 2 ^ mcs + 2 ≤ a.ent ∧ a.ent < a.free
  dict : ∀ p code, assocGet a.dict p = some code → 2 ^ mcs + 2 ≤ code ∧ code < a.free

namespace AbsLzw.Fits

variable {mcs c : Nat} {a : AbsLzw}

theorem ent_lt_free (h : a.Fits mcs) : a.ent < a.free := by
  have hlow := h.freeLow
  rcases h.ent with hent | hent <;> omega

theorem ent_fits (h : a.Fits mcs) : a.ent < 2 ^ a.width := h.ent_lt_free.trans_le h.room

theorem ent_lt (h : a.Fits mcs) : a.ent < 4096 := h.ent_lt_free.trans_le h.freeHigh

theorem ent_ne_clear (h : a.Fits mcs) : a.ent ≠ 2 ^ mcs := by
  rcases h.ent with hent | hent <;> omega

theorem ent_ne_eoi (h : a.Fits mcs) : a.ent ≠ 2 ^ mcs + 1 := by
  rcases h.ent with hent | hent <;> omega

/-- A width of 12 is the last, and a code emitted when no code is free leaves the width at 12. -/
theorem absWiden_width (h : a.Fits mcs) :
    (absWiden a).width = if a.width < 12 ∧ a.free = 2 ^ a.width then a.width + 1 else a.width := by
  have hroom := h.room
  have hfree := h.freeHigh
  have hpos : 0 < 2 ^ a.width := Nat.two_pow_pos _
  rw [absWiden, absLimit, apply_ite AbsLzw.width]
  rcases h.widthHigh.lt_or_eq with hlt | h12
  · rw [if_neg hlt.ne]
    simp only [hlt, true_and]
    congr 1
    exact propext (by omega)
  · rw [if_pos h12, if_neg (by omega), if_neg (by omega)]

theorem le_absWiden_width (h : a.Fits mcs) : a.width ≤ (absWiden a).width := by
  rw [h.absWiden_width]
  split <;> omega

theorem absWiden_width_le (h : a.Fits mcs) : (absWiden a).width ≤ 12 := by
  have hwidth := h.widthHigh
  rw [h.absWiden_width]
  split <;> omega

theorem two_pow_le (h : a.Fits mcs) : 2 ^ (mcs + 1) ≤ 2 ^ (absWiden a).width :=
  Nat.pow_le_pow_right (by decide) (h.widthLow.trans h.le_absWiden_width)

/-- After a code is emitted the free code itself fits the width, while there is one. -/
theorem free_lt (h : a.Fits mcs) (hfree : a.free < 4096) : a.free < 2 ^ (absWiden a).width := by
  have hroom := h.room
  have hlt : 2 ^ a.width < 2 ^ (a.width + 1) := Nat.pow_lt_pow_right (by decide) (Nat.lt_succ_self _)
  rw [h.absWiden_width]
  split
  next hgrow => omega
  next hstay =>
    rcases h.widthHigh.lt_or_eq with hwidth | h12
    · exact hroom.lt_of_ne fun heq => hstay ⟨hwidth, heq⟩
    · rw [h12]; exact hfree

/-- The reset Clear is 12 bits wide. -/
theorem absWiden_width_of_full (h : a.Fits mcs) (hfull : ¬a.free < 4096) : (absWiden a).width = 12 := by
  have hroom := h.room
  have hwidth : a.width = 12 := by
    refine h.widthHigh.antisymm (Nat.le_of_not_lt fun hlt => ?_)
    have hpow : 2 ^ a.width ≤ 2 ^ 11 := Nat.pow_le_pow_right (by decide) (Nat.le_of_lt_succ hlt)
    omega
  rw [h.absWiden_width, if_neg (by omega), hwidth]

theorem hit (h : a.Fits mcs) {code : Nat} (hcode : assocGet a.dict (a.ent, c) = some code) :
    AbsLzw.Fits mcs { a with ent := code } :=
  { h with ent := .inr (h.dict _ _ hcode) }

theorem inserted (h : a.Fits mcs) (hc : c < 2 ^ mcs) (hfree : a.free < 4096) : (a.inserted c).Fits mcs where
  freeLow := Nat.le_succ_of_le h.freeLow
  freeHigh := hfree
  widthLow := h.widthLow.trans h.le_absWiden_width
  widthHigh := h.absWiden_width_le
  room := h.free_lt hfree
  ent := .inl hc
  dict p code hp := by
    have hold := h.dict p code
    have hlow := h.freeLow
    simp only [AbsLzw.inserted, assocGet] at hp ⊢
    split at hp
    · cases hp; omega
    · have := hold hp; omega

theorem fresh (hlow : 2 ≤ mcs) (hhigh : mcs ≤ 8) (hc : c < 2 ^ mcs) : (AbsLzw.fresh mcs c).Fits mcs := by
  have hmin : 2 ^ 2 ≤ 2 ^ mcs := Nat.pow_le_pow_right (by decide) hlow
  have hmax : 2 ^ mcs ≤ 2 ^ 8 := Nat.pow_le_pow_right (by decide) hhigh
  have hnext : 2 ^ (mcs + 1) = 2 ^ mcs * 2 := Nat.pow_succ ..
  constructor <;> simp only [AbsLzw.fresh]
  case ent => exact .inl hc
  case dict => exact fun _ _ h => by cases h
  all_goals omega

theorem absPixel (h : a.Fits mcs) (hlow : 2 ≤ mcs) (hhigh : mcs ≤ 8) (hc : c < 2 ^ mcs) :
    (Machine.absPixel mcs c a).1.Fits mcs := by
  cases hget : assocGet a.dict (a.ent, c) with
  | some code => exact absPixel_of_hit hget ▸ h.hit hget
  | none =>
    by_cases hfree : a.free < 4096
    · exact absPixel_of_miss hget hfree ▸ h.inserted hc hfree
    · exact absPixel_of_full hget hfree ▸ .fresh hlow hhigh hc

end AbsLzw.Fits

/-- Right after a Clear the width stays at its smallest: more than one code is free in it. -/
theorem fresh_absWiden {mcs c : Nat} (hlow : 2 ≤ mcs) (hhigh : mcs ≤ 8) : absWiden (.fresh mcs c) = .fresh mcs c := by
  have hmin : 2 ^ 2 ≤ 2 ^ mcs := Nat.pow_le_pow_right (by decide) hlow
  have hnext : 2 ^ (mcs + 1) = 2 ^ mcs * 2 := Nat.pow_succ ..
  have hlimit : absLimit (mcs + 1) = 2 ^ (mcs + 1) - 1 := if_neg (by omega)
  refine if_neg ?_
  simp only [AbsLzw.fresh, hlimit]
  omega

/-! ## The codes of the remaining pixels -/

section
variable {mcs : Nat} {c : Byte} {a : AbsLzw} (rest : List Byte)

theorem absCodesFrom_of_hit {code : Nat} (h : assocGet a.dict (a.ent, c.toNat) = some code) :
    absCodesFrom mcs (c :: rest) a = absCodesFrom mcs rest { a with ent := code } := by
  rw [absCodesFrom, absPixel_of_hit h, List.nil_append]

theorem absCodesFrom_of_miss (h : assocGet a.dict (a.ent, c.toNat) = none) (hfree : a.free < 4096) :
    absCodesFrom mcs (c :: rest) a = (a.ent, a.width) :: absCodesFrom mcs rest (a.inserted c.toNat) := by
  rw [absCodesFrom, absPixel_of_miss h hfree, List.singleton_append]

theorem absCodesFrom_of_full (ha : a.Fits mcs) (h : assocGet a.dict (a.ent, c.toNat) = none) (hfull : ¬a.free < 4096) :
    absCodesFrom mcs (c :: rest) a = (a.ent, a.width) :: (2 ^ mcs, 12) :: absCodesFrom mcs rest (.fresh mcs c.toNat) := by
  rw [absCodesFrom, absPixel_of_full h hfull, ha.absWiden_width_of_full hfull]
  rfl

end

section
variable {mcs : Nat} (hlow : 2 ≤ mcs) (hhigh : mcs ≤ 8)
include hlow hhigh

/-- Induction over the pixels of a frame, from a compressor within its invariant: each extends the string, inserts a pair, or
resets the table. -/
theorem absCodesFrom_induction {motive : List Byte → AbsLzw → Prop}
    (last : ∀ a, a.Fits mcs → motive [] a)
    (hit : ∀ (c : Byte) rest a code, a.Fits mcs → assocGet a.dict (a.ent, c.toNat) = some code →
      motive rest { a with ent := code } → motive (c :: rest) a)
    (miss : ∀ (c : Byte) rest a, a.Fits mcs → c.toNat < 2 ^ mcs → assocGet a.dict (a.ent, c.toNat) = none → a.free < 4096 →
      motive rest (a.inserted c.toNat) → motive (c :: rest) a)
    (full : ∀ (c : Byte) rest a, a.Fits mcs → (∀ d ∈ c :: rest, d.toNat < 2 ^ mcs) →
      assocGet a.dict (a.ent, c.toNat) = none → ¬a.free < 4096 →
      motive rest (.fresh mcs c.toNat) → motive (c :: rest) a)
    {indices : List Byte} (hsymbols : ∀ c ∈ indices, c.toNat < 2 ^ mcs) {a : AbsLzw} (ha : a.Fits mcs) : motive indices a := by
  induction indices generalizing a with
  | nil => exact last a ha
  | cons c rest ih =>
    obtain ⟨hc, hrest⟩ := List.forall_mem_cons.mp hsymbols
    cases hget : assocGet a.dict (a.ent, c.toNat) with
    | some code => exact hit c rest a code ha hget (ih hrest (ha.hit hget))
    | none =>
      by_cases hfree : a.free < 4096
      · exact miss c rest a ha hc hget hfree (ih hrest (ha.inserted hc hfree))
      · exact full c rest a ha hsymbols hget hfree (ih hrest (.fresh hlow hhigh hc))

end

/-! ## Widths (R159) -/

/-- A code fits its width, and the width is in its range. -/
def CodeFits (mcs : Nat) (e : Nat × Nat) : Prop := e.1 < 2 ^ e.2 ∧ mcs + 1 ≤ e.2 ∧ e.2 ≤ 12

/-- The width `w` may follow the code `e`: it is no smaller, or the smallest after a Clear. -/
def WidthFollows (mcs : Nat) (e : Nat × Nat) (w : Nat) : Prop := e.2 ≤ w ∨ e.1 = 2 ^ mcs ∧ w = mcs + 1

/-- The code `f` may follow the code `e`. -/
def CodeFollows (mcs : Nat) (e f : Nat × Nat) : Prop := WidthFollows mcs e f.2 ∧ (f.1 = 2 ^ mcs → f.2 = 12)

section
variable {mcs : Nat} {a : AbsLzw} (ha : a.Fits mcs)
include ha

theorem AbsLzw.Fits.ent_codeFits : CodeFits mcs (a.ent, a.width) := ⟨ha.ent_fits, ha.widthLow, ha.widthHigh⟩

/-- Clear and EOI fit every width. -/
theorem AbsLzw.Fits.marker_codeFits (hlow : 2 ≤ mcs) {code : Nat} (hcode : code ≤ 2 ^ mcs + 1) :
    CodeFits mcs (code, (absWiden a).width) := by
  have hmin : 2 ^ 2 ≤ 2 ^ mcs := Nat.pow_le_pow_right (by decide) hlow
  have hnext : 2 ^ (mcs + 1) = 2 ^ mcs * 2 := Nat.pow_succ ..
  have hle := ha.two_pow_le
  refine ⟨?_, ha.widthLow.trans ha.le_absWiden_width, ha.absWiden_width_le⟩
  dsimp only
  omega

theorem AbsLzw.Fits.ent_follows {e : Nat × Nat} (he : WidthFollows mcs e a.width) : CodeFollows mcs e (a.ent, a.width) :=
  ⟨he, fun h => absurd h ha.ent_ne_clear⟩

end

section
variable {mcs : Nat} (hlow : 2 ≤ mcs) (hhigh : mcs ≤ 8)
include hlow hhigh

theorem absCodesFrom_codeFits {indices : List Byte} (hsymbols : ∀ c ∈ indices, c.toNat < 2 ^ mcs) {a : AbsLzw}
    (ha : a.Fits mcs) : ∀ e ∈ absCodesFrom mcs indices a, CodeFits mcs e := by
  refine absCodesFrom_induction hlow hhigh (motive := fun indices a => ∀ e ∈ absCodesFrom mcs indices a, CodeFits mcs e)
    ?last ?hit ?miss ?full hsymbols ha
  case last =>
    intro a ha
    simp only [absCodesFrom, List.forall_mem_cons]
    exact ⟨ha.ent_codeFits, ha.marker_codeFits hlow le_rfl, by simp⟩
  case hit =>
    intro c rest a code ha hget ih
    rwa [absCodesFrom_of_hit rest hget]
  case miss =>
    intro c rest a ha hc hget hfree ih
    rw [absCodesFrom_of_miss rest hget hfree, List.forall_mem_cons]
    exact ⟨ha.ent_codeFits, ih⟩
  case full =>
    intro c rest a ha hc hget hfull ih
    have hclear := ha.marker_codeFits hlow (Nat.le_succ (2 ^ mcs))
    rw [ha.absWiden_width_of_full hfull] at hclear
    rw [absCodesFrom_of_full rest ha hget hfull, List.forall_mem_cons, List.forall_mem_cons]
    exact ⟨ha.ent_codeFits, hclear, ih⟩

theorem absCodesFrom_chain {indices : List Byte} (hsymbols : ∀ c ∈ indices, c.toNat < 2 ^ mcs) {a : AbsLzw}
    (ha : a.Fits mcs) {e : Nat × Nat} (he : WidthFollows mcs e a.width) :
    (e :: absCodesFrom mcs indices a).IsChain (CodeFollows mcs) := by
  refine absCodesFrom_induction hlow hhigh (motive := fun indices a =>
      ∀ e, WidthFollows mcs e a.width → (e :: absCodesFrom mcs indices a).IsChain (CodeFollows mcs))
    ?last ?hit ?miss ?full hsymbols ha e he
  case last =>
    intro a ha e he
    rw [absCodesFrom, List.isChain_cons_cons, List.isChain_pair]
    exact ⟨ha.ent_follows he, .inl ha.le_absWiden_width, fun h => absurd h (Nat.succ_ne_self _)⟩
  case hit =>
    intro c rest a code ha hget ih e he
    rw [absCodesFrom_of_hit rest hget]
    exact ih e he
  case miss =>
    intro c rest a ha hc hget hfree ih e he
    rw [absCodesFrom_of_miss rest hget hfree, List.isChain_cons_cons]
    exact ⟨ha.ent_follows he, ih _ (.inl ha.le_absWiden_width)⟩
  case full =>
    intro c rest a ha hc hget hfull ih e he
    rw [absCodesFrom_of_full rest ha hget hfull, List.isChain_cons_cons, List.isChain_cons_cons]
    exact ⟨ha.ent_follows he, ⟨.inl ha.widthHigh, fun _ => rfl⟩, ih _ (.inr ⟨rfl, rfl⟩)⟩

end

/-! ## The cadence of Clears (R163) -/

theorem absCodesFrom_nil_no_clear {mcs : Nat} {a : AbsLzw} (ha : a.Fits mcs) {w : Nat}
    (pre : List (Nat × Nat)) {post : List (Nat × Nat)} : absCodesFrom mcs [] a ≠ pre ++ (2 ^ mcs, w) :: post := by
  intro hcodes
  have hmem : (2 ^ mcs, w) ∈ absCodesFrom mcs [] a := by simp [hcodes]
  simp [absCodesFrom, ha.ent_ne_clear.symm] at hmem

section
variable {mcs : Nat} (hlow : 2 ≤ mcs) (hhigh : mcs ≤ 8)
include hlow hhigh

/-- Up to the next Clear each code but one takes one free code. -/
theorem absCodesFrom_length_to_clear {indices : List Byte} (hsymbols : ∀ c ∈ indices, c.toNat < 2 ^ mcs) {a : AbsLzw}
    (ha : a.Fits mcs) {mid post : List (Nat × Nat)} {w : Nat}
    (hcodes : absCodesFrom mcs indices a = mid ++ (2 ^ mcs, w) :: post) (hmid : ∀ e ∈ mid, e.1 ≠ 2 ^ mcs) :
    mid.length = 4096 - a.free + 1 := by
  refine absCodesFrom_induction hlow hhigh (motive := fun indices a => ∀ mid, (∀ e ∈ mid, e.1 ≠ 2 ^ mcs) →
      absCodesFrom mcs indices a = mid ++ (2 ^ mcs, w) :: post → mid.length = 4096 - a.free + 1)
    ?last ?hit ?miss ?full hsymbols ha mid hmid hcodes
  case last =>
    intro a ha mid hmid hcodes
    exact absurd hcodes (absCodesFrom_nil_no_clear ha mid)
  case hit =>
    intro c rest a code ha hget ih mid hmid hcodes
    rw [absCodesFrom_of_hit rest hget] at hcodes
    exact ih mid hmid hcodes
  case miss =>
    intro c rest a ha hc hget hfree ih mid hmid hcodes
    rw [absCodesFrom_of_miss rest hget hfree] at hcodes
    cases mid with
    | nil => exact absurd (congrArg Prod.fst (List.cons.inj hcodes).1) ha.ent_ne_clear
    | cons e mid =>
      have hlen := ih mid (List.forall_mem_cons.mp hmid).2 (List.cons.inj hcodes).2
      simp only [AbsLzw.inserted] at hlen
      rw [List.length_cons, hlen]
      omega
  case full =>
    intro c rest a ha hc hget hfull ih mid hmid hcodes
    have hfree := ha.freeHigh
    rw [absCodesFrom_of_full rest ha hget hfull] at hcodes
    match mid, hmid, hcodes with
    | [], _, hcodes => exact absurd (congrArg Prod.fst (List.cons.inj hcodes).1) ha.ent_ne_clear
    | [e], _, _ => rw [List.length_singleton]; omega
    | e :: f :: mid, hmid, hcodes =>
      have hclear := (List.cons.inj (List.cons.inj hcodes).2).1
      exact absurd (congrArg Prod.fst hclear).symm (hmid f (by simp))

/-- After a Clear stand the codes of a compressor that is right after a Clear. -/
theorem absCodesFrom_after_clear {indices : List Byte} (hsymbols : ∀ c ∈ indices, c.toNat < 2 ^ mcs) {a : AbsLzw}
    (ha : a.Fits mcs) {pre post : List (Nat × Nat)} {w : Nat}
    (hcodes : absCodesFrom mcs indices a = pre ++ (2 ^ mcs, w) :: post) :
    ∃ (c : Byte) (rest : List Byte), (∀ d ∈ c :: rest, d.toNat < 2 ^ mcs) ∧
      post = absCodesFrom mcs rest (.fresh mcs c.toNat) := by
  refine absCodesFrom_induction hlow hhigh (motive := fun indices a => ∀ pre,
      absCodesFrom mcs indices a = pre ++ (2 ^ mcs, w) :: post →
      ∃ (c : Byte) (rest : List Byte), (∀ d ∈ c :: rest, d.toNat < 2 ^ mcs) ∧
        post = absCodesFrom mcs rest (.fresh mcs c.toNat))
    ?last ?hit ?miss ?full hsymbols ha pre hcodes
  case last =>
    intro a ha pre hcodes
    exact absurd hcodes (absCodesFrom_nil_no_clear ha pre)
  case hit =>
    intro c rest a code ha hget ih pre hcodes
    rw [absCodesFrom_of_hit rest hget] at hcodes
    exact ih pre hcodes
  case miss =>
    intro c rest a ha hc hget hfree ih pre hcodes
    rw [absCodesFrom_of_miss rest hget hfree] at hcodes
    cases pre with
    | nil => exact absurd (congrArg Prod.fst (List.cons.inj hcodes).1) ha.ent_ne_clear
    | cons e pre => exact ih pre (List.cons.inj hcodes).2
  case full =>
    intro c rest a ha hsymbols hget hfull ih pre hcodes
    rw [absCodesFrom_of_full rest ha hget hfull] at hcodes
    match pre, hcodes with
    | [], hcodes => exact absurd (congrArg Prod.fst (List.cons.inj hcodes).1) ha.ent_ne_clear
    | [e], hcodes => exact ⟨c, rest, hsymbols, (List.cons.inj (List.cons.inj hcodes).2).2.symm⟩
    | e :: f :: pre, hcodes => exact ih pre (List.cons.inj (List.cons.inj hcodes).2).2

end
end Sys2Proof.Machine
end

section
/-! PROOFS. The LZW unit simulates the abstract compressor (42_lzw R158): its hash table finds the pairs of the dictionary and no
others, its registers hold the compressor's, and its output packs the same codes. -/

namespace Sys2Proof.Machine

/-! ## Lookups after an insertion (R146, R147, R149) -/

section
variable {u : LzwUnit} {slot key : Nat}

theorem insertPair_other {i : Nat} (h : i ≠ slot) :
    cellsGet (insertPair slot key u).htab i = cellsGet u.htab i ∧ codeAt (insertPair slot key u) i = codeAt u i :=
  ⟨cellsGet_put_other _ _ h, congrArg (Option.getD · 0) (cellsGet_put_other _ _ h)⟩

variable (hempty : cellsGet u.htab slot = none)
include hempty

/-- A slot that is not EMPTY is none that is filled. -/
theorem insertPair_of_get {i k : Nat} (h : cellsGet u.htab i = some k) :
    cellsGet (insertPair slot key u).htab i = some k ∧ codeAt (insertPair slot key u) i = codeAt u i := by
  have hne : i ≠ slot := by
    rintro rfl
    exact absurd (hempty.symm.trans h) (by simp)
  obtain ⟨hget, hcode⟩ := insertPair_other (u := u) (key := key) hne
  exact ⟨hget.trans h, hcode⟩

/-- A probe that hits meets no EMPTY slot on its way, so filling one changes nothing. -/
theorem secondaryProbe_insert_hit {probed disp fuel i found code : Nat}
    (h : secondaryProbe u probed disp fuel i = .hit found code) :
    secondaryProbe (insertPair slot key u) probed disp fuel i = .hit found code := by
  induction fuel generalizing i with
  | zero => cases h
  | succ fuel ih =>
    rw [secondaryProbe] at h ⊢
    cases hget : cellsGet u.htab (nextSlot i disp) with
    | none => simp [hget] at h
    | some other =>
      obtain ⟨hsame, hcode⟩ := insertPair_of_get (key := key) hempty hget
      simp only [hget, hsame, hcode] at h ⊢
      split
      next heq => rwa [if_pos heq] at h
      next hne => exact ih (by rwa [if_neg hne] at h)

/-- A probe that misses at an EMPTY slot finds what is inserted there. -/
theorem secondaryProbe_insert_miss {disp fuel i other : Nat} (hstart : cellsGet u.htab i = some other)
    (h : secondaryProbe u key disp fuel i = .miss slot) :
    secondaryProbe (insertPair slot key u) key disp fuel i = .hit slot u.free := by
  induction fuel generalizing i other with
  | zero =>
    cases h
    exact absurd (hempty.symm.trans hstart) (by simp)
  | succ fuel ih =>
    rw [secondaryProbe] at h ⊢
    cases hget : cellsGet u.htab (nextSlot i disp) with
    | none =>
      simp only [hget, Lookup.miss.injEq] at h
      obtain ⟨hkey, hcode⟩ := insertPair_get slot key u
      simp only [h, hkey, hcode, if_true]
    | some other =>
      obtain ⟨hsame, hcode⟩ := insertPair_of_get (key := key) hempty hget
      simp only [hget, hsame] at h ⊢
      split
      next heq => rw [if_pos heq] at h; cases h
      next hne => exact ih hget (by rwa [if_neg hne] at h)

theorem lookupPair_insert_hit {c found code : Nat} (h : lookupPair u c = .hit found code) :
    lookupPair (insertPair slot key u) c = .hit found code := by
  have hent : (insertPair slot key u).ent = u.ent := rfl
  rw [lookupPair] at h ⊢
  rw [hent]
  cases hget : cellsGet u.htab (primarySlot u.ent c) with
  | none => simp [hget] at h
  | some other =>
    obtain ⟨hsame, hcode⟩ := insertPair_of_get (key := key) hempty hget
    simp only [hget, hsame, hcode] at h ⊢
    split
    next heq => rwa [if_pos heq] at h
    next hne => exact secondaryProbe_insert_hit hempty (by rwa [if_neg hne] at h)

theorem lookupPair_insert_miss {c : Nat} (h : lookupPair u c = .miss slot) :
    lookupPair (insertPair slot (pairKey u.ent c) u) c = .hit slot u.free := by
  have hent : (insertPair slot (pairKey u.ent c) u).ent = u.ent := rfl
  rw [lookupPair] at h ⊢
  rw [hent]
  cases hget : cellsGet u.htab (primarySlot u.ent c) with
  | none =>
    simp only [hget, Lookup.miss.injEq] at h
    obtain ⟨hkey, hcode⟩ := insertPair_get slot (pairKey u.ent c) u
    simp only [h, hkey, hcode, if_true]
  | some other =>
    obtain ⟨hsame, hcode⟩ := insertPair_of_get (key := pairKey u.ent c) hempty hget
    simp only [hget, hsame] at h ⊢
    split
    next heq => rw [if_pos heq] at h; cases h
    next hne => exact secondaryProbe_insert_miss hempty hget (by rwa [if_neg hne] at h)

end

/-- A probe reads HTAB and CODETAB only. -/
theorem secondaryProbe_congr {t u : LzwUnit} (hhtab : t.htab = u.htab) (hcodetab : t.codetab = u.codetab)
    (key disp fuel i : Nat) : secondaryProbe t key disp fuel i = secondaryProbe u key disp fuel i := by
  induction fuel generalizing i with
  | zero => rfl
  | succ fuel ih => simp only [secondaryProbe, codeAt, hhtab, hcodetab, ih]

/-- A lookup reads HTAB, CODETAB and LZW_ENT only. -/
theorem lookupPair_congr {t u : LzwUnit} (hhtab : t.htab = u.htab) (hcodetab : t.codetab = u.codetab) (hent : t.ent = u.ent)
    (c : Nat) : lookupPair t c = lookupPair u c := by
  simp only [lookupPair, codeAt, hhtab, hcodetab, hent, secondaryProbe_congr hhtab hcodetab]

/-! ## The hash table as a dictionary (R158) -/

/-- Lookups find every pair of the dictionary with its code, and every key listed is that of a pair in it. -/
structure LzwUnit.Holds (u : LzwUnit) (dict : List ((Nat × Nat) × Nat)) : Prop where
  found : ∀ ent c code, assocGet dict (ent, c) = some code → ∃ slot, lookupPair { u with ent := ent } c = .hit slot code
  listed : ∀ slot key, cellsGet u.htab slot = some key →
    ∃ ent c, ent < 4096 ∧ key = pairKey ent c ∧ assocGet dict (ent, c) ≠ none

theorem LzwUnit.Holds.congr {t u : LzwUnit} {dict : List ((Nat × Nat) × Nat)} (h : u.Holds dict) (hhtab : t.htab = u.htab)
    (hcodetab : t.codetab = u.codetab) : t.Holds dict where
  found ent c code hget := by
    obtain ⟨slot, hslot⟩ := h.found ent c code hget
    exact ⟨slot, hslot ▸ lookupPair_congr (t := { t with ent := ent }) (u := { u with ent := ent }) hhtab hcodetab rfl c⟩
  listed slot key hget := h.listed slot key (hhtab ▸ hget)

theorem LzwUnit.Holds.nil {u : LzwUnit} (h : u.htab = []) : u.Holds [] where
  found _ _ _ hget := by cases hget
  listed slot key hget := by rw [h] at hget; cases hget

theorem pairKey_injective {ent ent' c c' : Nat} (h : ent < 4096) (h' : ent' < 4096) (heq : pairKey ent c = pairKey ent' c') :
    ent = ent' ∧ c = c' := by
  rw [pairKey_eq, pairKey_eq] at heq
  omega

/-- A lookup of a pair in the dictionary hits with its code; of any other pair it misses at an EMPTY slot. -/
theorem LzwUnit.Holds.lookupPair_cases {u : LzwUnit} {dict : List ((Nat × Nat) × Nat)} (h : u.Holds dict)
    (hlen : u.htab.length < 5003) (hent : u.ent < 4096) {c : Nat} (hc : c < 256) :
    (∃ slot code, lookupPair u c = .hit slot code ∧ assocGet dict (u.ent, c) = some code) ∨
    ∃ slot, lookupPair u c = .miss slot ∧ cellsGet u.htab slot = none ∧ assocGet dict (u.ent, c) = none := by
  cases hget : assocGet dict (u.ent, c) with
  | some code =>
    obtain ⟨slot, hslot⟩ := h.found u.ent c code hget
    exact .inl ⟨slot, code, hslot, rfl⟩
  | none =>
    have hanswer := lookupPair_answers hlen hent hc
    cases hlookup : lookupPair u c with
    | miss slot =>
      rw [hlookup] at hanswer
      exact .inr ⟨slot, rfl, hanswer.2, rfl⟩
    | hit slot code =>
      rw [hlookup] at hanswer
      obtain ⟨ent, c', hent', hkey, hin⟩ := h.listed slot _ hanswer.2.1
      obtain ⟨rfl, rfl⟩ := pairKey_injective hent hent' hkey
      exact absurd hget hin

/-- Inserting the pair that missed adds it to the dictionary. -/
theorem LzwUnit.Holds.insertPair {u : LzwUnit} {dict : List ((Nat × Nat) × Nat)} (h : u.Holds dict) {ent c slot : Nat}
    (hent : ent < 4096) (hmiss : lookupPair { u with ent := ent } c = .miss slot) (hempty : cellsGet u.htab slot = none) :
    (insertPair slot (pairKey ent c) u).Holds (((ent, c), u.free) :: dict) where
  found e d code hget := by
    rw [assocGet] at hget
    split at hget
    next heq =>
      cases heq
      cases hget
      exact ⟨slot, lookupPair_insert_miss (u := { u with ent := ent }) hempty hmiss⟩
    next =>
      obtain ⟨found, hfound⟩ := h.found e d code hget
      exact ⟨found, lookupPair_insert_hit (u := { u with ent := e }) hempty hfound⟩
  listed i key hget := by
    by_cases hi : i = slot
    · rw [hi, (insertPair_get slot _ u).1] at hget
      cases hget
      exact ⟨ent, c, hent, rfl, by simp [assocGet]⟩
    · rw [(insertPair_other hi).1] at hget
      obtain ⟨e, d, he, hkey, hin⟩ := h.listed i key hget
      refine ⟨e, d, he, hkey, ?_⟩
      rw [assocGet]
      split
      · simp
      · exact hin

theorem cellsPut_length_le {α : Type} (m : List (Nat × α)) (i : Nat) (v : α) : (cellsPut m i v).length ≤ m.length + 1 := by
  induction m with
  | nil => exact le_rfl
  | cons cell m ih =>
    obtain ⟨k, w⟩ := cell
    rw [cellsPut]
    split
    · exact le_rfl
    · split
      · exact Nat.le_succ _
      · exact Nat.succ_le_succ ih

/-! ## The simulation (R143 to R154) -/

/-- The unit's registers hold the constants of the compression and the abstract compressor's free code and string, and its table
holds the dictionary, with no more entries than codes given out. -/
structure LzwUnit.Tracks (mcs : Nat) (u : LzwUnit) (a : AbsLzw) : Prop where
  initBits : u.initBits = mcs + 1
  clear : u.clear = 2 ^ mcs
  eoi : u.eoi = 2 ^ mcs + 1
  free : u.free = a.free
  ent : u.ent = a.ent
  holds : u.Holds a.dict
  entries : u.htab.length + (2 ^ mcs + 2) ≤ a.free

/-- The unit emits codes at a width, and no reset Clear is due. -/
structure LzwUnit.AtWidth (u : LzwUnit) (width : Nat) : Prop where
  nbits : u.nbits = width
  maxcode : u.maxcode = absLimit width
  clearFlg : u.clearFlg = false

/-- The unit between two codes of a frame, and the abstract compressor there. -/
structure LzwUnit.Refines (mcs : Nat) (u : LzwUnit) (a : AbsLzw) : Prop where
  codes : u.Tracks mcs a
  width : u.AtWidth a.width
  output : u.OutputReady

theorem LzwUnit.SameCodes.tracks {mcs : Nat} {t u : LzwUnit} {a : AbsLzw} (hsame : t.SameCodes u) (h : u.Tracks mcs a) :
    t.Tracks mcs a where
  initBits := hsame.initBits.trans h.initBits
  clear := hsame.clear.trans h.clear
  eoi := hsame.eoi.trans h.eoi
  free := hsame.free.trans h.free
  ent := hsame.ent.trans h.ent
  holds := h.holds.congr hsame.htab hsame.codetab
  entries := hsame.htab ▸ h.entries

theorem LzwUnit.Tracks.absWiden {mcs : Nat} {u : LzwUnit} {a : AbsLzw} (h : u.Tracks mcs a) : u.Tracks mcs (absWiden a) := by
  rw [absWiden_eq]
  exact { h with }

theorem LzwUnit.Tracks.htab_short {mcs : Nat} {u : LzwUnit} {a : AbsLzw} (h : u.Tracks mcs a) (ha : a.Fits mcs) :
    u.htab.length < 5003 := by
  have hentries := h.entries
  have hfree := ha.freeHigh
  have hpos := Nat.two_pow_pos mcs
  omega

/-- The width grows with the compressor's (R154). -/
theorem LzwUnit.AtWidth.absWiden {u : LzwUnit} {a : AbsLzw} (h : u.AtWidth a.width) (hfree : u.free = a.free) :
    (updateWidth u).AtWidth (absWiden a).width := by
  by_cases hgrow : absLimit a.width < a.free
  · have hwiden : (Machine.absWiden a).width = a.width + 1 := congrArg AbsLzw.width (if_pos hgrow)
    rw [updateWidth, if_pos (.inl (by rwa [hfree, h.maxcode])), if_neg (by simp [h.clearFlg]), hwiden, h.nbits]
    exact ⟨rfl, rfl, h.clearFlg⟩
  · have hwiden : Machine.absWiden a = a := if_neg hgrow
    rw [updateWidth, if_neg (by simpa [hfree, h.maxcode, h.clearFlg] using hgrow), hwiden]
    exact h

/-- Behind a reset Clear the width is the smallest (R154). -/
theorem updateWidth_atWidth_of_clear {mcs : Nat} (hhigh : mcs ≤ 8) {u : LzwUnit} (hinit : u.initBits = mcs + 1)
    (hflag : u.clearFlg = true) : (updateWidth u).AtWidth (mcs + 1) := by
  rw [updateWidth, if_pos (.inr hflag), if_pos hflag, hinit]
  exact ⟨rfl, (if_neg (by omega)).symm, rfl⟩

theorem outputCode_atWidth {code width : Nat} {u : LzwUnit} (heoi : code ≠ u.eoi) (h : (updateWidth u).AtWidth width) :
    (outputCode code u).1.AtWidth width := by
  rw [outputCode_eq heoi]
  exact ⟨h.nbits, h.maxcode, h.clearFlg⟩

/-- The unit as CL_BLOCK leaves it before it emits the reset Clear (R150). -/
def LzwUnit.cleared (u : LzwUnit) : LzwUnit := { u with htab := [], free := u.clear + 2, clearFlg := true }

theorem clearBlock_eq (u : LzwUnit) : clearBlock u = outputCode u.clear u.cleared := rfl

section
variable {mcs : Nat} {u : LzwUnit} {a : AbsLzw} (h : u.Refines mcs a)
include h

theorem LzwUnit.Refines.withEnt (e : Nat) : LzwUnit.Refines mcs { u with ent := e } { a with ent := e } where
  codes := { h.codes with ent := rfl, holds := h.codes.holds.congr rfl rfl }
  width := ⟨h.width.nbits, h.width.maxcode, h.width.clearFlg⟩
  output := ⟨h.output.acc, h.output.accBits, h.output.sbBuf⟩

theorem LzwUnit.Refines.withCurPix (k : Nat) : LzwUnit.Refines mcs { u with curPix := k } a where
  codes := { h.codes with holds := h.codes.holds.congr rfl rfl }
  width := ⟨h.width.nbits, h.width.maxcode, h.width.clearFlg⟩
  output := ⟨h.output.acc, h.output.accBits, h.output.sbBuf⟩

/-- A code other than EOI: packed at the current width, which is then updated. -/
theorem outputCode_refines {code : Nat} (heoi : code ≠ 2 ^ mcs + 1) (hcode : code < 2 ^ a.width) :
    (outputCode code u).1.Refines mcs (absWiden a) ∧ Emits u [(code, a.width)] (outputCode code u) := by
  rw [← h.codes.eoi] at heoi
  rw [← h.width.nbits] at hcode ⊢
  exact ⟨⟨((outputCode_sameCodes code u).tracks h.codes).absWiden,
    outputCode_atWidth heoi (h.width.absWiden h.codes.free), outputCode_ready h.output heoi hcode⟩,
    outputCode_emits h.output heoi⟩

/-- The reset Clear: packed at the current width; after it the table is empty and the width the smallest (R150). -/
theorem clearBlock_refines (hhigh : mcs ≤ 8) (hcode : 2 ^ mcs < 2 ^ a.width) :
    (clearBlock u).1.Refines mcs (.fresh mcs a.ent) ∧ Emits u [(2 ^ mcs, a.width)] (clearBlock u) := by
  have heoi : u.clear ≠ u.cleared.eoi := by
    rw [LzwUnit.cleared, h.codes.clear, h.codes.eoi]
    exact (Nat.succ_ne_self _).symm
  have htracks : u.cleared.Tracks mcs (.fresh mcs a.ent) :=
    { h.codes with
      free := congrArg (· + 2) h.codes.clear, holds := .nil rfl, entries := (Nat.zero_add _).le }
  have houtput : u.cleared.OutputReady := ⟨h.output.acc, h.output.accBits, h.output.sbBuf⟩
  rw [← h.width.nbits, ← h.codes.clear] at hcode
  rw [clearBlock_eq, ← h.width.nbits, ← h.codes.clear]
  exact ⟨⟨(outputCode_sameCodes _ _).tracks htracks,
    outputCode_atWidth heoi (updateWidth_atWidth_of_clear hhigh h.codes.initBits rfl),
    outputCode_ready houtput heoi hcode⟩, outputCode_emits houtput heoi⟩

/-- Behind a code, the pair that missed before it is inserted (R149). -/
theorem insertPair_refines {ent c slot : Nat} (hent : ent < 4096)
    (hmiss : lookupPair { u with ent := ent } c = .miss slot) (hempty : cellsGet u.htab slot = none) :
    (insertPair slot (pairKey ent c) u).Refines mcs { a with dict := ((ent, c), a.free) :: a.dict, free := a.free + 1 } where
  codes :=
    { h.codes with
      free := congrArg (· + 1) h.codes.free
      holds := h.codes.free ▸ h.codes.holds.insertPair hent hmiss hempty
      entries := by
        have hentries := h.codes.entries
        have hlen := cellsPut_length_le u.htab slot (pairKey ent c)
        simp only [insertPair]
        omega }
  width := ⟨h.width.nbits, h.width.maxcode, h.width.clearFlg⟩
  output := ⟨h.output.acc, h.output.accBits, h.output.sbBuf⟩

/-- A miss emits the string's code and inserts the pair, or resets the table (R148). -/
theorem missPair_refines (hlow : 2 ≤ mcs) (hhigh : mcs ≤ 8) (ha : a.Fits mcs) {c slot : Nat}
    (hmiss : lookupPair u c = .miss slot) (hempty : cellsGet u.htab slot = none)
    (hget : assocGet a.dict (a.ent, c) = none) :
    (missPair slot c u).1.Refines mcs (absPixel mcs c a).1 ∧ Emits u (absPixel mcs c a).2 (missPair slot c u) := by
  obtain ⟨hout, hemits⟩ := outputCode_refines h ha.ent_ne_eoi ha.ent_fits
  have hsame := outputCode_sameCodes a.ent u
  have hnext := hout.withEnt c
  have hfreeEq : (outputCode a.ent u).1.free = a.free := hsame.free.trans h.codes.free
  rw [missPair, h.codes.ent]
  dsimp only
  by_cases hfree : a.free < 4096
  · rw [absPixel_of_miss hget hfree, if_pos (by rwa [hfreeEq])]
    have hmissNext : lookupPair { (outputCode a.ent u).1 with ent := a.ent } c = .miss slot :=
      (lookupPair_congr (t := { (outputCode a.ent u).1 with ent := a.ent }) hsame.htab hsame.codetab h.codes.ent.symm
        c).trans hmiss
    have hinserted := insertPair_refines hnext ha.ent_lt hmissNext (hsame.htab ▸ hempty)
    rw [absWiden_eq] at hinserted
    exact ⟨hinserted, hemits⟩
  · rw [absPixel_of_full hget hfree, if_neg (by rwa [hfreeEq])]
    obtain ⟨hclear, hemitsClear⟩ := clearBlock_refines hnext hhigh (ha.marker_codeFits hlow (Nat.le_succ _)).1
    exact ⟨hclear, hemits.append hemitsClear⟩

theorem compressPixel_refines (hlow : 2 ≤ mcs) (hhigh : mcs ≤ 8) (ha : a.Fits mcs) {c : Nat} (hc : c < 256) :
    (compressPixel c u).1.Refines mcs (absPixel mcs c a).1 ∧ Emits u (absPixel mcs c a).2 (compressPixel c u) := by
  have hent : u.ent < 4096 := h.codes.ent ▸ ha.ent_lt
  rcases h.codes.holds.lookupPair_cases (h.codes.htab_short ha) hent hc with
    ⟨slot, code, hhit, hget⟩ | ⟨slot, hmiss, hempty, hget⟩ <;> rw [h.codes.ent] at hget
  · rw [compressPixel, hhit, absPixel_of_hit hget]
    exact ⟨h.withEnt code, fun bits => rfl⟩
  · rw [compressPixel, hmiss]
    exact missPair_refines h hlow hhigh ha hmiss hempty hget

/-- END emits the last string and EOI, and all that is pending (R151). -/
theorem compressEnd_bytes (hlow : 2 ≤ mcs) (ha : a.Fits mcs) :
    (compressEnd u).2 = u.future (codeBits (absCodesFrom mcs [] a)) := by
  obtain ⟨hout, hemits⟩ := outputCode_refines h ha.ent_ne_eoi ha.ent_fits
  have hfits := (ha.marker_codeFits hlow le_rfl).1
  rw [← hout.width.nbits, ← hout.codes.eoi] at hfits
  have heoi := outputCode_eoi_bytes hout.output hfits
  rw [compressEnd, h.codes.ent]
  dsimp only
  rw [heoi, hemits, ← codeBits_append, hout.codes.eoi, hout.width.nbits]
  rfl

end

/-- The pixels' codes, the last string and EOI (R145, R151). -/
theorem compressPixels_bytes {mcs : Nat} (hlow : 2 ≤ mcs) (hhigh : mcs ≤ 8) {indices : List Byte}
    (hsymbols : ∀ c ∈ indices, c.toNat < 2 ^ mcs) {u : LzwUnit} {a : AbsLzw} (h : u.Refines mcs a) (ha : a.Fits mcs) :
    (compressPixels indices u).2 ++ (compressEnd (compressPixels indices u).1).2
      = u.future (codeBits (absCodesFrom mcs indices a)) := by
  induction indices generalizing u a with
  | nil => exact compressEnd_bytes h hlow ha
  | cons c rest ih =>
    obtain ⟨hc, hrest⟩ := List.forall_mem_cons.mp hsymbols
    obtain ⟨hnext, hemits⟩ := compressPixel_refines (h.withCurPix (u.curPix + 1)) hlow hhigh ha c.isLt
    rw [compressPixels]
    dsimp only
    rw [List.append_assoc, ih hrest hnext (ha.absPixel hlow hhigh hc), hemits, ← codeBits_append]
    rfl

/-- The unit before the opening Clear (R143, R144). -/
def LzwUnit.started (initBits n first : Nat) (u : LzwUnit) : LzwUnit := { lzwInit initBits n u with ent := first, curPix := 1 }

theorem lzwCompress_cons (initBits : Nat) (first : Byte) (rest : List Byte) (u : LzwUnit) :
    (lzwCompress initBits (first :: rest) u).2
      = let opened := outputCode (u.started initBits (first :: rest).length first.toNat).clear
          (u.started initBits (first :: rest).length first.toNat)
        opened.2 ++ (compressPixels rest opened.1).2 ++ (compressEnd (compressPixels rest opened.1).1).2 := rfl

theorem started_refines {mcs : Nat} (hhigh : mcs ≤ 8) (n first : Nat) (u : LzwUnit) :
    (u.started (mcs + 1) n first).Refines mcs (.fresh mcs first) where
  codes :=
    { initBits := rfl, clear := Nat.one_shiftLeft _, eoi := congrArg (· + 1) (Nat.one_shiftLeft _),
      free := congrArg (· + 2) (Nat.one_shiftLeft _), ent := rfl, holds := .nil rfl, entries := (Nat.zero_add _).le }
  width := ⟨rfl, (if_neg (by simp only [AbsLzw.fresh]; omega)).symm, rfl⟩
  output := ⟨Nat.one_pos, Nat.succ_pos _, Nat.succ_pos _⟩

/-- A frame's compressed bytes are the sub-blocks of the abstract compressor's codes. -/
theorem lzwCompress_blocks {mcs : Nat} (hlow : 2 ≤ mcs) (hhigh : mcs ≤ 8) {indices : List Byte} (hne : indices ≠ [])
    (hsymbols : ∀ c ∈ indices, c.toNat < 2 ^ mcs) (u : LzwUnit) :
    (lzwCompress (mcs + 1) indices u).2 = blocksOf (packBytes (codeBits (absCodes mcs indices))) := by
  cases indices with
  | nil => exact absurd rfl hne
  | cons first rest =>
    obtain ⟨hfirst, hrest⟩ := List.forall_mem_cons.mp hsymbols
    have hinit := started_refines hhigh (first :: rest).length first.toNat u
    have hfresh := AbsLzw.Fits.fresh hlow hhigh hfirst
    have hclear := hfresh.marker_codeFits hlow (Nat.le_succ _)
    rw [fresh_absWiden hlow hhigh] at hclear
    obtain ⟨hnext, hemits⟩ := outputCode_refines hinit (Nat.succ_ne_self _).symm hclear.1
    rw [fresh_absWiden hlow hhigh] at hnext
    have hbytes := compressPixels_bytes hlow hhigh hrest hnext hfresh
    rw [lzwCompress_cons, hinit.codes.clear]
    dsimp only
    rw [List.append_assoc, hbytes, hemits, ← codeBits_append]
    rfl

/-- The data region of a frame packs the codes of the abstract compressor. -/
theorem lzwEncode_eq_packRegion {cd : Nat} (hcd : cd ≤ 8) {indices : List Byte} (hne : indices ≠ [])
    (hsymbols : ∀ c ∈ indices, c.toNat < 2 ^ max 2 cd) (u : LzwUnit) :
    (lzwEncode cd indices u).2 = packRegion (max 2 cd) (absCodes (max 2 cd) indices) := by
  have hblocks := lzwCompress_blocks (le_max_left 2 cd) (max_le (by decide) hcd) hne hsymbols u
  rw [lzwEncode, minCodeSize]
  dsimp only
  rw [hblocks]
  rfl

/-- Settles O42: the unit simulates the abstract compressor, code by code. -/
theorem dataRegionIsThatOfTheAbstractDictionary : Obligations.DataRegionIsThatOfTheAbstractDictionary :=
  fun _ _ u _ hcd hne hsymbols => lzwEncode_eq_packRegion hcd hne hsymbols u

end Sys2Proof.Machine
end

section
/-! PROOFS. What the data region that the unit shares with the abstract compressor looks like: its sub-blocks, the widths of
its codes and the distance of its Clears (42_lzw R159, R160, R163). -/

namespace Sys2Proof.Machine

/-- Bytes are cut into full sub-blocks and one last one. -/
theorem blocksOf_shape {bytes : List Byte} (hne : bytes ≠ []) :
    ∃ (full : List (List Byte)) (last : List Byte),
      blocksOf bytes = (full.flatMap fun b => 254#8 :: b) ++ BitVec.ofNat 8 last.length :: last ∧
      (∀ b ∈ full, b.length = 254) ∧ 1 ≤ last.length ∧ last.length ≤ 254 := by
  induction hlen : bytes.length using Nat.strong_induction_on generalizing bytes with
  | _ n ih =>
    subst hlen
    rcases Nat.lt_or_ge 254 bytes.length with hlong | hshort
    · have hfull : (bytes.take 254).length = 254 := List.length_take_of_le hlong.le
      have hdrop : (bytes.drop 254).length = bytes.length - 254 := List.length_drop
      have hrest : bytes.drop 254 ≠ [] := List.ne_nil_of_length_pos (by omega)
      obtain ⟨full, last, hblocks, hall, hlast⟩ := ih _ (by omega) hrest rfl
      refine ⟨bytes.take 254 :: full, last, ?_, List.forall_mem_cons.mpr ⟨hfull, hall⟩, hlast⟩
      rw [blocksOf_of_ne_nil hne, hblocks, hfull, List.flatMap_cons, List.append_assoc]
    · exact ⟨[], bytes, blocksOf_of_short hne hshort, by simp, List.length_pos_of_ne_nil hne, hshort⟩

theorem packBytes_ne_nil {bits : List Bool} (h : bits ≠ []) : packBytes bits ≠ [] := by
  unfold packBytes
  split
  · exact absurd rfl h
  · exact List.cons_ne_nil _ _
  · exact List.cons_ne_nil _ _

/-- Settles O44: there is at least one byte, because the opening Clear has bits. -/
theorem subBlocksAreFullButTheLast : Obligations.SubBlocksAreFullButTheLast := by
  intro cd indices u _ hcd hne hsymbols
  have hbits : codeBits (absCodes (max 2 cd) indices) ≠ [] := by
    cases indices with
    | nil => exact absurd rfl hne
    | cons first rest =>
      refine List.ne_nil_of_length_pos ?_
      rw [absCodes, codeBits_cons, List.length_append, numBits_length]
      omega
  obtain ⟨full, last, hblocks, hall, hlast⟩ := blocksOf_shape (packBytes_ne_nil hbits)
  refine ⟨full, last, ?_, hall, hlast⟩
  rw [lzwEncode_eq_packRegion hcd hne hsymbols]
  exact congrArg (fun blocks => BitVec.ofNat 8 (max 2 cd) :: (blocks ++ [0x00#8])) hblocks

/-- The opening Clear, then the codes of a compressor right after a Clear. -/
theorem absCodes_cons (mcs : Nat) (first : Byte) (rest : List Byte) :
    absCodes mcs (first :: rest) = (2 ^ mcs, mcs + 1) :: absCodesFrom mcs rest (.fresh mcs first.toNat) := rfl

/-- Settles O45: the compressor's invariant bounds every width, and the codes form a chain. -/
theorem codeWidthsGrowAndDropOnlyAtAClear : Obligations.CodeWidthsGrowAndDropOnlyAtAClear := by
  intro cd indices u _ hcd hne hsymbols
  refine ⟨lzwEncode_eq_packRegion hcd hne hsymbols u, ?_⟩
  have hlow : 2 ≤ max 2 cd := le_max_left 2 cd
  have hhigh : max 2 cd ≤ 8 := max_le (by decide) hcd
  generalize max 2 cd = mcs at hsymbols hlow hhigh ⊢
  cases indices with
  | nil => exact absurd rfl hne
  | cons first rest =>
    obtain ⟨hfirst, hrest⟩ := List.forall_mem_cons.mp hsymbols
    have hfresh := AbsLzw.Fits.fresh hlow hhigh hfirst
    have hopening := hfresh.marker_codeFits hlow (Nat.le_succ _)
    rw [fresh_absWiden hlow hhigh] at hopening
    have hchain := absCodesFrom_chain hlow hhigh hrest hfresh (e := (2 ^ mcs, mcs + 1)) (.inl le_rfl)
    rw [absCodes_cons]
    exact ⟨List.forall_mem_cons.mpr ⟨hopening, absCodesFrom_codeFits hlow hhigh hrest hfresh⟩,
      fun pre post e f hcodes => List.isChain_iff_forall_rel_of_append_cons_cons.mp hchain hcodes⟩

/-- Settles O46: behind each Clear the compressor starts over, and from there to the next Clear each code but one takes a free
code. -/
theorem clearsComeAtTheResetCadence : Obligations.ClearsComeAtTheResetCadence := by
  intro cd indices u _ hcd hne hsymbols
  refine ⟨lzwEncode_eq_packRegion hcd hne hsymbols u, fun pre mid post w1 w2 hcodes hmid => ?_⟩
  have hlow : 2 ≤ max 2 cd := le_max_left 2 cd
  have hhigh : max 2 cd ≤ 8 := max_le (by decide) hcd
  generalize max 2 cd = mcs at hsymbols hlow hhigh hcodes hmid ⊢
  obtain ⟨first, rest, hrest, hafter⟩ : ∃ (c : Byte) (rest : List Byte), (∀ d ∈ c :: rest, d.toNat < 2 ^ mcs) ∧
      mid ++ (2 ^ mcs, w2) :: post = absCodesFrom mcs rest (.fresh mcs c.toNat) := by
    cases indices with
    | nil => exact absurd rfl hne
    | cons first rest =>
      rw [absCodes_cons] at hcodes
      cases pre with
      | nil => exact ⟨first, rest, hsymbols, (List.cons.inj hcodes).2.symm⟩
      | cons e pre =>
        obtain ⟨hfirst, hrest⟩ := List.forall_mem_cons.mp hsymbols
        refine absCodesFrom_after_clear hlow hhigh hrest (.fresh hlow hhigh hfirst) (pre := pre) (w := w1) ?_
        simpa using (List.cons.inj hcodes).2
  obtain ⟨hsymbol, hrest⟩ := List.forall_mem_cons.mp hrest
  exact absCodesFrom_length_to_clear hlow hhigh hrest (.fresh hlow hhigh hsymbol) hafter.symm hmid

end Sys2Proof.Machine
end

section
/-! PROOFS. The decoder of the format reads a frame's indices back from its data region (42_lzw R161): sub-blocks and bits read
back as they were written, and the decoder's table lags one string behind the compressor's dictionary. -/

namespace Sys2Proof.Machine

/-! ## Sub-blocks and bits read back (R155 to R157) -/

theorem joinSubBlocks_blocksOf {fuel : Nat} {bytes : List Byte} (hfuel : (blocksOf bytes).length < fuel) :
    joinSubBlocks fuel (blocksOf bytes ++ [0x00#8]) = some bytes := by
  induction fuel generalizing bytes with
  | zero => omega
  | succ fuel ih =>
    rcases eq_or_ne bytes [] with rfl | hne
    · rfl
    · have hpos := List.length_pos_of_ne_nil hne
      have hblocks := blocksOf_of_ne_nil hne
      have htake : (bytes.take 254).length ≤ 254 := List.length_take_le ..
      have htakePos : 0 < (bytes.take 254).length := by rw [List.length_take]; omega
      have hcount : (BitVec.ofNat 8 (bytes.take 254).length).toNat = (bytes.take 254).length := Nat.mod_eq_of_lt (by omega)
      have hnonzero : BitVec.ofNat 8 (bytes.take 254).length ≠ 0#8 := by
        rintro hzero
        rw [hzero] at hcount
        exact absurd hcount htakePos.ne
      rw [hblocks, List.length_append, List.length_cons] at hfuel
      rw [hblocks, List.append_assoc, List.cons_append, joinSubBlocks, if_neg hnonzero, hcount,
        if_neg (by rw [List.length_append]; omega), List.drop_left, List.take_left, ih (by omega), Option.map_some,
        List.take_append_drop]

theorem numBits_bitsValue {n : Nat} {bits : List Bool} (h : bits.length ≤ n) :
    numBits n (bitsValue bits) = bits ++ List.replicate (n - bits.length) false := by
  induction bits generalizing n with
  | nil => simp [numBits, bitsValue, List.eq_replicate_iff]
  | cons b rest ih =>
    obtain ⟨n, rfl⟩ := Nat.exists_eq_add_of_le (Nat.one_le_of_lt h)
    have hlow : numBits 1 (bitsValue (b :: rest)) = [b] := by
      cases b <;> simp [numBits, bitsValue, Nat.testBit_zero, List.range_succ]
    have hhigh : bitsValue (b :: rest) >>> 1 = bitsValue rest := by
      have hb := b.toNat_le
      rw [bitsValue, Nat.shiftRight_eq_div_pow]
      omega
    rw [List.length_cons] at h
    rw [numBits_add, hlow, hhigh, ih (by omega), List.length_cons, Nat.add_comm rest.length, Nat.add_sub_add_left]
    rfl

theorem byteBits_cons (x : Nat) (bytes : List Byte) : byteBits (BitVec.ofNat 8 x :: bytes) = numBits 8 x ++ byteBits bytes := by
  rw [byteBits, List.flatMap_cons]
  congr 1
  refine List.map_congr_left fun i hi => ?_
  rw [BitVec.getLsbD_ofNat, decide_eq_true (List.mem_range.mp hi), Bool.true_and]

/-- The bits of the packed bytes are the packed bits, and padding behind them. -/
theorem byteBits_packBytes (bits : List Bool) : ∃ padding, byteBits (packBytes bits) = bits ++ padding := by
  induction hlen : bits.length using Nat.strong_induction_on generalizing bits with
  | _ n ih =>
    subst hlen
    rcases Nat.lt_or_ge bits.length 8 with hshort | hlong
    · rcases eq_or_ne bits [] with rfl | hne
      · exact ⟨[], rfl⟩
      · exact ⟨_, by rw [packBytes_of_short hne hshort, byteBits_cons, numBits_bitsValue hshort.le]; exact List.append_nil _⟩
    · have htake : (bits.take 8).length = 8 := List.length_take_of_le hlong
      obtain ⟨padding, hpadding⟩ := ih _ (by rw [List.length_drop]; omega) (bits.drop 8) rfl
      refine ⟨padding, ?_⟩
      have hbits := List.take_append_drop 8 bits
      rw [← hbits, packBytes_append htake, byteBits_cons, numBits_bitsValue htake.le, htake, hpadding, hbits,
        Nat.sub_self, List.replicate_zero, List.append_nil, ← List.append_assoc, hbits]

/-- Every code has a bit, so a data region has at least as many bits as codes. -/
theorem length_le_codeBits {codes : List (Nat × Nat)} (h : ∀ e ∈ codes, 1 ≤ e.2) : codes.length ≤ (codeBits codes).length := by
  induction codes with
  | nil => exact le_rfl
  | cons e codes ih =>
    obtain ⟨he, hcodes⟩ := List.forall_mem_cons.mp h
    have hle := ih hcodes
    rw [codeBits_cons, List.length_cons, List.length_append, numBits_length]
    omega

/-! ## One code read (R161) -/

section
variable {mcs fuel code : Nat} {d : DecLzw} (hcode : code < 2 ^ d.width) (bits : List Bool)
include hcode

/-- The decoder reads the code that was written at its width. -/
theorem read_numBits :
    ¬(numBits d.width code ++ bits).length < d.width ∧ bitsValue ((numBits d.width code ++ bits).take d.width) = code ∧
      (numBits d.width code ++ bits).drop d.width = bits := by
  refine ⟨by simp, ?_, List.drop_left' (numBits_length ..)⟩
  rw [List.take_left' (numBits_length ..), bitsValue_numBits, Nat.mod_eq_of_lt hcode]

theorem decCodes_clear (hclear : code = 2 ^ mcs) :
    decCodes mcs (fuel + 1) d (numBits d.width code ++ bits)
      = decCodes mcs fuel { table := [], prev := none, width := mcs + 1 } bits := by
  obtain ⟨hlen, hvalue, hrest⟩ := read_numBits hcode bits
  rw [decCodes, if_neg hlen, hvalue, hrest, if_pos hclear]

theorem decCodes_eoi (heoi : code = 2 ^ mcs + 1) : decCodes mcs (fuel + 1) d (numBits d.width code ++ bits) = some [] := by
  obtain ⟨hlen, hvalue, hrest⟩ := read_numBits hcode bits
  rw [decCodes, if_neg hlen, hvalue, if_neg (by omega), if_pos heoi]

/-- The first code after a Clear is a symbol. -/
theorem decCodes_first (hprev : d.prev = none) (hsymbol : code < 2 ^ mcs) :
    decCodes mcs (fuel + 1) d (numBits d.width code ++ bits)
      = (decCodes mcs fuel { d with prev := some [BitVec.ofNat 8 code] } bits).map ([BitVec.ofNat 8 code] ++ ·) := by
  obtain ⟨hlen, hvalue, hrest⟩ := read_numBits hcode bits
  rw [decCodes, if_neg hlen, hvalue, hrest, if_neg (by omega), if_neg (by omega), hprev]
  exact if_pos hsymbol

theorem decCodes_next {prev entry : List Byte} (hclear : code ≠ 2 ^ mcs) (heoi : code ≠ 2 ^ mcs + 1) (hprev : d.prev = some prev)
    (hentry : decString mcs code d.table prev = some entry) :
    decCodes mcs (fuel + 1) d (numBits d.width code ++ bits)
      = (decCodes mcs fuel
          { table := decExtend mcs d.table prev entry, prev := some entry
            width := decWiden mcs d.width (decExtend mcs d.table prev entry) } bits).map (entry ++ ·) := by
  obtain ⟨hlen, hvalue, hrest⟩ := read_numBits hcode bits
  rw [decCodes, if_neg hlen, hvalue, hrest, if_neg hclear, if_neg heoi, hprev]
  simp only [hentry]

end

/-! ## The strings of the compressor's codes -/

/-- The string of a code, given the strings of the codes from Clear + 2 on. -/
def codeString (mcs : Nat) (table : List (List Byte)) (code : Nat) : Option (List Byte) :=
  if code < 2 ^ mcs then some [BitVec.ofNat 8 code]
  else if code < 2 ^ mcs + 2 then none
  else table[code - (2 ^ mcs + 2)]?

theorem codeString_append {mcs code : Nat} {table : List (List Byte)} {string : List Byte} (more : List (List Byte))
    (h : codeString mcs table code = some string) : codeString mcs (table ++ more) code = some string := by
  rw [codeString] at h ⊢
  split at h
  next hsymbol => rwa [if_pos hsymbol]
  next hsymbol =>
    split at h
    next => cases h
    next hmarker =>
      obtain ⟨hlt, -⟩ := List.getElem?_eq_some_iff.mp h
      rwa [if_neg hsymbol, if_neg hmarker, List.getElem?_append_left hlt]

/-- Without further strings only symbols have one. -/
theorem codeString_nil {mcs code : Nat} {string : List Byte} (h : codeString mcs [] code = some string) :
    code < 2 ^ mcs ∧ string = [BitVec.ofNat 8 code] := by
  rw [codeString] at h
  split at h
  next hsymbol => exact ⟨hsymbol, (Option.some.inj h).symm⟩
  next => split at h <;> cases h

theorem codeString_last (mcs : Nat) (table : List (List Byte)) (string : List Byte) :
    codeString mcs (table ++ [string]) (2 ^ mcs + 2 + table.length) = some string := by
  rw [codeString, if_neg (by omega), if_neg (by omega), Nat.add_sub_cancel_left, List.getElem?_concat_length]

/-- The table lists the strings of the codes given out, `string` is the current one, and a pair in the dictionary stands for a
string of the table and one symbol more. -/
structure AbsLzw.Spells (mcs : Nat) (a : AbsLzw) (table : List (List Byte)) (string : List Byte) : Prop where
  free : a.free = 2 ^ mcs + 2 + table.length
  ent : codeString mcs table a.ent = some string
  nonempty : string ≠ []
  dict : ∀ ent c code, assocGet a.dict (ent, c) = some code →
    ∃ part, codeString mcs table ent = some part ∧ codeString mcs table code = some (part ++ [BitVec.ofNat 8 c])

theorem codeString_symbol {mcs : Nat} (table : List (List Byte)) {c : Byte} (hc : c.toNat < 2 ^ mcs) :
    codeString mcs table c.toNat = some [c] := by
  rw [codeString, if_pos hc]
  simp

section
variable {mcs : Nat} {a : AbsLzw} {table : List (List Byte)} {string : List Byte} {c : Byte}

theorem AbsLzw.Spells.fresh (hc : c.toNat < 2 ^ mcs) : (AbsLzw.fresh mcs c.toNat).Spells mcs [] [c] where
  free := rfl
  ent := codeString_symbol [] hc
  nonempty := List.cons_ne_nil _ _
  dict _ _ _ h := by cases h

theorem AbsLzw.Spells.hit (h : a.Spells mcs table string) {code : Nat} (hget : assocGet a.dict (a.ent, c.toNat) = some code) :
    AbsLzw.Spells mcs { a with ent := code } table (string ++ [c]) where
  free := h.free
  ent := by
    obtain ⟨part, hpart, hcode⟩ := h.dict _ _ _ hget
    obtain rfl : part = string := Option.some.inj (hpart.symm.trans h.ent)
    simpa using hcode
  nonempty := by simp
  dict := h.dict

/-- The inserted pair stands for the emitted string and the next symbol. -/
theorem AbsLzw.Spells.inserted (h : a.Spells mcs table string) (hc : c.toNat < 2 ^ mcs) :
    (a.inserted c.toNat).Spells mcs (table ++ [string ++ [c]]) [c] where
  free := by
    rw [AbsLzw.inserted, h.free, List.length_append]
    rfl
  ent := codeString_symbol _ hc
  nonempty := List.cons_ne_nil _ _
  dict ent d code hget := by
    simp only [AbsLzw.inserted, assocGet] at hget
    split at hget
    next heq =>
      cases heq
      cases hget
      refine ⟨string, codeString_append _ h.ent, ?_⟩
      rw [h.free]
      simpa using codeString_last mcs table (string ++ [c])
    next =>
      obtain ⟨part, hpart, hcode⟩ := h.dict ent d code hget
      exact ⟨part, codeString_append _ hpart, codeString_append _ hcode⟩

end

/-! ## The decoder lags one string behind (R161) -/

/-- The decoder before it reads the code of the current string: it has all strings but the last, which is the previous string and
the first symbol of the current one; right after a Clear it has none. -/
def DecLzw.Lags (d : DecLzw) (table : List (List Byte)) (string : List Byte) : Prop :=
  d.prev = none ∧ d.table = [] ∧ table = [] ∨
  ∃ prev, d.prev = some prev ∧ prev ≠ [] ∧ table = d.table ++ [prev ++ string.take 1]

section
variable {mcs : Nat} {a : AbsLzw} {d : DecLzw} {table : List (List Byte)} {string : List Byte}

theorem DecLzw.Lags.extend (h : d.Lags table string) (hne : string ≠ []) (c : Byte) : d.Lags table (string ++ [c]) := by
  rwa [Lags, List.take_append_of_le_length (List.length_pos_of_ne_nil hne)]

/-- The string of the code read is the compressor's, even when the decoder has yet to add it. -/
theorem decString_ent (ha : a.Fits mcs) (hspells : a.Spells mcs table string) {prev : List Byte} (hprev : prev ≠ [])
    (htable : table = d.table ++ [prev ++ string.take 1]) : decString mcs a.ent d.table prev = some string := by
  have hent := hspells.ent
  have hlt := ha.ent_lt_free
  have hmax := ha.ent_lt
  have hfree := hspells.free
  rw [htable, List.length_append, List.length_singleton] at hfree
  rw [codeString] at hent
  rw [decString]
  split at hent
  next hsymbol => rwa [if_pos hsymbol]
  next hsymbol =>
    split at hent
    next => cases hent
    next hmarker =>
      rw [if_neg hsymbol, if_neg hmarker]
      by_cases hold : a.ent - (2 ^ mcs + 2) < d.table.length
      · rwa [if_pos hold, ← List.getElem?_append_left hold, ← htable]
      · have hlast : a.ent - (2 ^ mcs + 2) = d.table.length := by omega
        rw [if_neg hold, if_pos ⟨hlast, hmax⟩]
        rw [htable, hlast, List.getElem?_concat_length, Option.some.injEq] at hent
        have htake : string.take 1 = prev.take 1 := by
          rw [← hent, List.take_append_of_le_length (List.length_pos_of_ne_nil hprev)]
        rw [← htake, hent]

/-- The decoder reads the code of the current string, and then has all strings. -/
theorem decCodes_ent (hlow : 2 ≤ mcs) (ha : a.Fits mcs) (hspells : a.Spells mcs table string) (hlags : d.Lags table string)
    (hwidth : d.width = a.width) (fuel : Nat) (bits : List Bool) :
    decCodes mcs (fuel + 1) d (numBits a.width a.ent ++ bits)
      = (decCodes mcs fuel { table := table, prev := some string, width := (absWiden a).width } bits).map (string ++ ·) := by
  have hfits : a.ent < 2 ^ d.width := hwidth ▸ ha.ent_fits
  have hgrow := ha.absWiden_width
  have hfree := hspells.free
  rw [← hwidth] at hgrow ⊢
  rcases hlags with ⟨hprev, hnone, rfl⟩ | ⟨prev, hprev, hne, htable⟩
  · obtain ⟨hsymbol, rfl⟩ := codeString_nil hspells.ent
    have hmin : 2 ^ 2 ≤ 2 ^ mcs := Nat.pow_le_pow_right (by decide) hlow
    have hroom : 2 ^ (mcs + 1) ≤ 2 ^ d.width := Nat.pow_le_pow_right (by decide) (hwidth ▸ ha.widthLow)
    have hnext : 2 ^ (mcs + 1) = 2 ^ mcs * 2 := Nat.pow_succ ..
    rw [List.length_nil] at hfree
    rw [decCodes_first hfits bits hprev hsymbol, hgrow, if_neg (by omega), hnone]
  · have hextend : decExtend mcs d.table prev string = table := by
      have hmax := ha.freeHigh
      rw [htable, List.length_append, List.length_singleton] at hfree
      rw [decExtend, if_pos (by omega), htable]
    rw [decCodes_next hfits bits ha.ent_ne_clear ha.ent_ne_eoi hprev (decString_ent ha hspells hne htable), hextend, decWiden,
      hgrow, hfree]

end

/-- What `decCodes_absCodesFrom` says of a compressor before the remaining pixels. -/
def DecodesFrom (mcs : Nat) (padding : List Bool) (indices : List Byte) (a : AbsLzw) : Prop :=
  ∀ (table : List (List Byte)) (string : List Byte) (d : DecLzw) (fuel : Nat), a.Spells mcs table string →
    d.Lags table string → d.width = a.width → (absCodesFrom mcs indices a).length ≤ fuel →
    decCodes mcs fuel d (codeBits (absCodesFrom mcs indices a) ++ padding) = some (string ++ indices)

/-- The decoder reads the current string and the pixels that follow it. -/
theorem decCodes_absCodesFrom {mcs : Nat} (hlow : 2 ≤ mcs) (hhigh : mcs ≤ 8) (padding : List Bool) {indices : List Byte}
    (hsymbols : ∀ c ∈ indices, c.toNat < 2 ^ mcs) {a : AbsLzw} (ha : a.Fits mcs) : DecodesFrom mcs padding indices a := by
  refine absCodesFrom_induction hlow hhigh (motive := DecodesFrom mcs padding) ?last ?hit ?miss ?full hsymbols ha
  case last =>
    intro a ha table string d fuel hspells hlags hwidth hfuel
    obtain ⟨fuel, rfl⟩ := Nat.exists_eq_add_of_le' (show 2 ≤ fuel from hfuel)
    have heoi := (ha.marker_codeFits hlow le_rfl).1
    simp only [absCodesFrom, codeBits_cons, codeBits_nil, List.append_nil, List.append_assoc]
    rw [decCodes_ent hlow ha hspells hlags hwidth]
    rw [decCodes_eoi (d := { table := table, prev := some string, width := (absWiden a).width }) heoi padding rfl]
    simp
  case hit =>
    intro c rest a code ha hget ih table string d fuel hspells hlags hwidth hfuel
    rw [absCodesFrom_of_hit rest hget] at hfuel ⊢
    rw [ih table (string ++ [c]) d fuel (hspells.hit hget) (hlags.extend hspells.nonempty c) hwidth hfuel, List.append_assoc]
    rfl
  case miss =>
    intro c rest a ha hc hget hfree ih table string d fuel hspells hlags hwidth hfuel
    rw [absCodesFrom_of_miss rest hget hfree, List.length_cons] at hfuel
    obtain ⟨fuel, rfl⟩ := Nat.exists_eq_add_of_le' (Nat.one_le_of_lt hfuel)
    rw [absCodesFrom_of_miss rest hget hfree, codeBits_cons, List.append_assoc, decCodes_ent hlow ha hspells hlags hwidth,
      ih _ [c] _ fuel (hspells.inserted hc) (.inr ⟨string, rfl, hspells.nonempty, rfl⟩) rfl (Nat.le_of_succ_le_succ hfuel)]
    rfl
  case full =>
    intro c rest a ha hsymbols hget hfull ih table string d fuel hspells hlags hwidth hfuel
    have hclear := (ha.marker_codeFits hlow (Nat.le_succ _)).1
    rw [absCodesFrom_of_full rest ha hget hfull, List.length_cons, List.length_cons] at hfuel
    obtain ⟨fuel, rfl⟩ := Nat.exists_eq_add_of_le' (show 2 ≤ fuel by omega)
    have hc := (List.forall_mem_cons.mp hsymbols).1
    rw [absCodesFrom_of_full rest ha hget hfull, codeBits_cons, codeBits_cons, List.append_assoc, List.append_assoc,
      decCodes_ent hlow ha hspells hlags hwidth, ← ha.absWiden_width_of_full hfull]
    rw [decCodes_clear (d := { table := table, prev := some string, width := (absWiden a).width }) hclear _ rfl,
      ih [] [c] _ fuel (.fresh hc) (.inl ⟨rfl, rfl, rfl⟩) rfl (by omega)]
    rfl

/-- The decoder reads a frame's pixels from its codes, whatever bits stand behind them. -/
theorem decCodes_absCodes {mcs : Nat} (hlow : 2 ≤ mcs) (hhigh : mcs ≤ 8) (padding : List Bool) {indices : List Byte}
    (hne : indices ≠ []) (hsymbols : ∀ c ∈ indices, c.toNat < 2 ^ mcs) {fuel : Nat}
    (hfuel : (codeBits (absCodes mcs indices)).length ≤ fuel) :
    decCodes mcs fuel { table := [], prev := none, width := mcs + 1 } (codeBits (absCodes mcs indices) ++ padding)
      = some indices := by
  cases indices with
  | nil => exact absurd rfl hne
  | cons first rest =>
    obtain ⟨hfirst, hrest⟩ := List.forall_mem_cons.mp hsymbols
    have hfresh := AbsLzw.Fits.fresh hlow hhigh hfirst
    have hclear : 2 ^ mcs < 2 ^ (mcs + 1) := Nat.pow_lt_pow_right (by decide) (Nat.lt_succ_self _)
    have hcount := length_le_codeBits fun e he =>
      (Nat.le_add_left 1 mcs).trans (absCodesFrom_codeFits hlow hhigh hrest hfresh e he).2.1
    rw [absCodes_cons, codeBits_cons] at hfuel ⊢
    rw [List.length_append, numBits_length] at hfuel
    obtain ⟨fuel, rfl⟩ := Nat.exists_eq_add_of_le' (show 1 ≤ fuel by omega)
    rw [List.append_assoc, decCodes_clear (d := { table := [], prev := none, width := mcs + 1 }) hclear _ rfl]
    exact decCodes_absCodesFrom hlow hhigh padding hrest hfresh [] [first] _ fuel (.fresh hfirst) (.inl ⟨rfl, rfl, rfl⟩) rfl
      (by omega)

/-- Settles O43: sub-blocks, bits and codes read back in turn. -/
theorem decodingTheDataRegionGivesTheIndices : Obligations.DecodingTheDataRegionGivesTheIndices := by
  intro cd indices u _ hcd hne hsymbols
  rw [lzwEncode_eq_packRegion hcd hne hsymbols]
  have hlow : 2 ≤ max 2 cd := le_max_left 2 cd
  have hhigh : max 2 cd ≤ 8 := max_le (by decide) hcd
  generalize max 2 cd = mcs at hsymbols hlow hhigh ⊢
  have hregion (bytes : List Byte) :
      joinSubBlocks (blocksOf bytes ++ [0x00#8]).length (blocksOf bytes ++ [0x00#8]) = some bytes :=
    joinSubBlocks_blocksOf (by simp)
  have hmcs : (BitVec.ofNat 8 mcs).toNat = mcs := Nat.mod_eq_of_lt (by omega)
  obtain ⟨padding, hbits⟩ := byteBits_packBytes (codeBits (absCodes mcs indices))
  rw [packRegion, List.cons_append, decodeRegion, ← blocksOf, hregion, hmcs]
  simp only [hbits]
  exact decCodes_absCodes hlow hhigh padding hne hsymbols (by simp)

end Sys2Proof.Machine
end

section
/-! PROOFS. The bytes of the blocks that make up a frame: screen descriptor, palette, looping extension, control block, image
descriptor, and their order (43_container R189 to R194). -/

namespace Sys2Proof.Machine

/-! ## Numbers as bytes (R196) -/

/-- A byte takes the low 8 bits of a number. -/
theorem ofNat_byte_mod (v : Nat) : BitVec.ofNat 8 (v % 256) = BitVec.ofNat 8 v :=
  BitVec.eq_of_toNat_eq (Nat.mod_mod v 256)

/-- The two bytes of a number, by division. -/
theorem emitLE16_eq_mod_div (v : Nat) : emitLE16 v = [BitVec.ofNat 8 (v % 256), BitVec.ofNat 8 (v / 256)] := by
  rw [emitLE16, ofNat_byte_mod, Nat.shiftRight_eq_div_pow]

/-- The two bytes of a register's low half, as its bits. -/
theorem emitLE16_toNat {n : Nat} (x : BitVec n) : emitLE16 x.toNat = [x.extractLsb' 0 8, x.extractLsb' 8 8] := rfl

/-! ## The screen descriptor (R189) -/

/-- Settles O36: both dimensions as two bytes each, and the packed byte is 0xF7. -/
theorem screenDescriptorBytes : Obligations.ScreenDescriptorBytes := by
  intro s
  rw [lsdBytes, emitLE16_eq_mod_div, emitLE16_eq_mod_div]
  rfl

/-! ## The palette (R190) -/

@[simp] theorem rgbBytes_length (p : Rgb) : (rgbBytes p).length = 3 := rfl

theorem flatMap_rgbBytes_length (pal : List Rgb) : (pal.flatMap rgbBytes).length = 3 * pal.length := by
  simp [List.length_flatMap, Nat.mul_comm]

/-- Entry i of a palette stands at 3i, component by component. -/
theorem getElem?_flatMap_rgbBytes (pal : List Rgb) (i : Nat) {j : Nat} (hj : j < 3) :
    (pal.flatMap rgbBytes)[3 * i + j]? = pal[i]?.bind fun p => (rgbBytes p)[j]? := by
  induction pal generalizing i with
  | nil => rfl
  | cons p pal ih =>
    rw [List.flatMap_cons]
    cases i with
    | zero => rw [List.getElem?_append_left (by simpa using hj)]; simp
    | succ i =>
      have hpast : 3 * (i + 1) + j = (rgbBytes p).length + (3 * i + j) := by rw [rgbBytes_length]; omega
      rw [hpast, List.getElem?_append_right (Nat.le_add_right ..), Nat.add_sub_cancel_left, ih]
      rfl

/-- The palette as written: all entries, then zeros. -/
theorem paletteBytes_eq {f : FrameUnit} (hlen : f.palLen = f.pal.length) :
    paletteBytes f = f.pal.flatMap rgbBytes ++ List.replicate (768 - 3 * f.palLen) 0x00#8 := by
  rw [paletteBytes, hlen, List.take_length]
  rfl

theorem paletteBytes_length {f : FrameUnit} (hlen : f.palLen = f.pal.length) (hmost : f.palLen ≤ 256) :
    (paletteBytes f).length = 768 := by
  rw [paletteBytes_eq hlen, List.length_append, flatMap_rgbBytes_length, List.length_replicate]
  omega

/-- Settles O37: the entries come first, three bytes each, and the zeros fill up to 768. -/
theorem paletteIsPaddedTo768Bytes : Obligations.PaletteIsPaddedTo768Bytes := by
  intro f hlen hmost
  refine ⟨paletteBytes_length hlen hmost, fun i p hp => ?_, fun j hlow hhigh => ?_⟩
  · have hcomponent : ∀ j < 3, (paletteBytes f)[3 * i + j]? = (rgbBytes p)[j]? := fun j hj => by
      have hi : i < f.pal.length := (List.getElem?_eq_some_iff.mp hp).1
      rw [paletteBytes_eq hlen, List.getElem?_append_left (by rw [flatMap_rgbBytes_length]; omega),
        getElem?_flatMap_rgbBytes _ _ hj, hp, Option.bind_some]
    exact ⟨hcomponent 0 (by decide), hcomponent 1 (by decide), hcomponent 2 (by decide)⟩
  · have hentries : (f.pal.flatMap rgbBytes).length = 3 * f.palLen := by rw [flatMap_rgbBytes_length, hlen]
    rw [paletteBytes_eq hlen, List.getElem?_append_right (hentries ▸ hlow), hentries]
    exact List.getElem?_replicate_of_lt (by omega)

/-! ## The control block (R192, R193) -/

theorem disposalMethod_toNat (s : State) :
    (disposalMethod s).toNat
      = if 0 ≤ s.dispose.toInt then s.dispose.toNat % 8 else if s.transp.valid then 2 else 0 := by
  simp only [disposalMethod, apply_ite BitVec.toNat, BitVec.extractLsb'_toNat, Nat.shiftRight_zero]
  rfl

/-- The packed byte as a number: the disposal method above two bits, the transparency flag in the lowest. -/
theorem gcePacked_toNat (s : State) :
    (gcePacked s).toNat = 4 * (disposalMethod s).toNat + (if s.transp.valid then 1 else 0) := by
  simp only [gcePacked, toNat_append_eq_add, toNat_ofBool_eq_ite, BitVec.toNat_ofNat]
  split <;> omega

/-- Settles O38: the packed byte is the byte of its number, and the delay is two bytes. -/
theorem controlBlockBytes : Obligations.ControlBlockBytes := by
  intro s
  rw [gceBytes, emitLE16_eq_mod_div, ← disposalMethod_toNat, ← gcePacked_toNat, BitVec.ofNat_toNat, BitVec.setWidth_eq]
  rfl

/-! ## The order of the blocks (R182, R191, R194) -/

theorem frameBytes_startedFirst {s : State} (data : List Byte) (h : s.lifecycle = .startedFirst) :
    frameBytes s data
      = lsdBytes s ++ paletteBytes s.frame ++ (if 0 ≤ s.repeatCount.toInt then loopExtBytes s else []) ++ gceBytes s
        ++ imageDescBytes s ++ data := by
  simp [frameBytes, firstFrameBytes, localPaletteBytes, h]

theorem frameBytes_startedSubseq {s : State} (data : List Byte) (h : s.lifecycle = .startedSubseq) :
    frameBytes s data = gceBytes s ++ imageDescBytes s ++ paletteBytes s.frame ++ data := by
  simp [frameBytes, firstFrameBytes, localPaletteBytes, h]

/-- Settles O39: the order is that of `frameBytes`; the numbers in the looping extension and in the image descriptor are two
bytes each. -/
theorem frameBlocksInTheirOrder : Obligations.FrameBlocksInTheirOrder := by
  intro s data loop desc
  have hloop : loopExtBytes s = loop := by
    rw [loopExtBytes, emitLE16_eq_mod_div, ← ofNat_byte_mod (s.repeatCount.toNat / 256)]
    rfl
  have hdesc : imageDescBytes s = desc (imageDescPacked s) := by
    simp [imageDescBytes, emitLE16_eq_mod_div, desc]
  refine ⟨fun hfirst => ?_, fun hlater => ?_⟩
  · rw [frameBytes_startedFirst data hfirst, hloop, hdesc, imageDescPacked, if_pos hfirst]
  · rw [frameBytes_startedSubseq data hlater, hdesc, imageDescPacked, if_neg (by simp [hlater])]

end Sys2Proof.Machine
end

section
/-! PROOFS. START, ADD_FRAME and FINISH, each as an equation: what it leaves when the sink accepts all of its operations, and what
it leaves when one of them fails (43_container R181, R182, R185, R186, 60_exceptions R242). -/

namespace Sys2Proof.Machine

/-! ## The sink port after a command's operations (20_memory R67, R71) -/

/-- The sink port after the operations `ops`, all answered ok, when the answers `rest` are left. -/
def SinkPort.afterOk (p : SinkPort) (ops : List SinkOp) (rest : List SinkAnswer) : SinkPort :=
  { p with answers := rest, log := okRecords ops ++ p.log }

/-- The sink port after the operations `ops`, all answered ok, and `op`, answered fail, when the answers `rest` are left. -/
def SinkPort.afterFail (p : SinkPort) (ops : List SinkOp) (op : SinkOp) (rest : List SinkAnswer) : SinkPort :=
  { p with answers := rest, log := ⟨op, .fail⟩ :: okRecords ops ++ p.log }

theorem okRecords_append (first second : List SinkOp) :
    okRecords (first ++ second) = okRecords second ++ okRecords first := by
  simp [okRecords]

theorem okRecords_sinkWrites (bytes : List Byte) :
    okRecords (sinkWrites bytes) = (bytes.map fun b => ⟨.sinkWrite b, .ok⟩).reverse := by
  rw [okRecords, sinkWrites, List.map_map]
  rfl

/-- Opening the sink adds no byte to the stream. -/
theorem streamOf_okRecords_openOps (own : Bool) : streamOf (okRecords (openOps own)) = [] := by
  cases own <;> rfl

/-- The stream gains the bytes that the accepted operations write. -/
theorem streamOf_afterOk (p : SinkPort) (ops : List SinkOp) (rest : List SinkAnswer) :
    streamOf (p.afterOk ops rest).log = streamOf p.log ++ streamOf (okRecords ops) :=
  streamOf_append ..

/-- The failed operation adds nothing to the stream. -/
theorem streamOf_afterFail (p : SinkPort) (ops : List SinkOp) (op : SinkOp) (rest : List SinkAnswer) :
    streamOf (p.afterFail ops op rest).log = streamOf p.log ++ streamOf (okRecords ops) := by
  rw [SinkPort.afterFail, List.cons_append, ← List.singleton_append, streamOf_append, streamOf_append, streamOf_failed,
    List.append_nil]

/-- The write of byte `k` stands behind the writes of the `k` bytes before it. -/
theorem sinkWrites_eq_of_getElem? {bytes : List Byte} {k : Nat} {b : Byte} (h : bytes[k]? = some b) :
    sinkWrites bytes = sinkWrites (bytes.take k) ++ .sinkWrite b :: sinkWrites (bytes.drop (k + 1)) := by
  obtain ⟨hk, rfl⟩ := List.getElem?_eq_some_iff.mp h
  calc sinkWrites bytes
    _ = sinkWrites (bytes.take k ++ bytes.drop k) := by rw [List.take_append_drop]
    _ = _ := by rw [List.drop_eq_getElem_cons hk, sinkWrites, List.map_append, List.map_cons]; rfl

theorem length_sinkWrites_take {bytes : List Byte} {k : Nat} {b : Byte} (h : bytes[k]? = some b) :
    (sinkWrites (bytes.take k)).length = k := by
  obtain ⟨hk, -⟩ := List.getElem?_eq_some_iff.mp h
  rw [sinkWrites_length, List.length_take_of_le hk.le]

/-- What raising a sink error writes (60 R242). -/
theorem raiseCause_sinkError (s : State) :
    raiseCause .sinkError s = { s with result := .sink, sinkErr := true, running := none } := by
  simp [raiseCause, finishCmd, causeCode]

/-! ## START (R181) -/

section
variable {own : Bool} {s : State} {rest : List SinkAnswer}

/-- A START that passes its checks offers its operations. -/
theorem exec_start_allowed (hlife : s.lifecycle = .unstarted ∨ s.lifecycle = .finished)
    (hsink : own = false → s.sink.present = true) :
    exec (.start own) s = .next (startSession own s (clearSticky s)) := by
  have hs : s.started = false := (not_started_iff s).mpr hlife
  rw [exec_start, execStart, if_neg (by simp [hs]), if_neg (by simpa using hsink)]

theorem startSession_accepted
    (h : s.sink.answers = List.replicate (openOps own ++ sinkWrites signatureBytes).length .ok ++ rest) :
    startSession own s (clearSticky s)
      = finishCmd .ok { clearSticky s with
          ownSink := own, lifecycle := .startedFirst
          sink := s.sink.afterOk (openOps own ++ sinkWrites signatureBytes) rest } := by
  rw [List.length_append, ← List.replicate_append_replicate, List.append_assoc] at h
  rw [startSession, offerThen_accepted (.start own) s (clearSticky s) _ _ _ _ h]
  rw [offerThen_accepted (.start own) s _ _ _ _ rest rfl]
  simp [SinkPort.afterOk, okRecords_append]

theorem startSession_open_failed (h : s.sink.answers = .fail :: rest) :
    startSession true s (clearSticky s)
      = raiseCause .sinkError { clearSticky s with sink := s.sink.afterFail [] .sinkOpen rest } :=
  offerThen_failed (.start true) s (clearSticky s) [] .sinkOpen [] _ _ rest h

theorem startSession_signature_failed {k : Nat} {b : Byte} (hb : signatureBytes[k]? = some b)
    (h : s.sink.answers = List.replicate ((openOps own).length + k) .ok ++ .fail :: rest) :
    startSession own s (clearSticky s)
      = raiseCause .sinkError { clearSticky s with
          ownSink := own
          sink := s.sink.afterFail (openOps own ++ sinkWrites (signatureBytes.take k)) (.sinkWrite b) rest } := by
  rw [← List.replicate_append_replicate, List.append_assoc] at h
  rw [startSession, offerThen_accepted (.start own) s (clearSticky s) _ _ _ _ h, sinkWrites_eq_of_getElem? hb]
  rw [offerThen_failed (.start own) s _ _ _ _ _ _ rest (by rw [length_sinkWrites_take hb])]
  simp [SinkPort.afterFail, okRecords_append]

end

/-- Settles O23: the operations are SinkOpen, of an own sink, and the six writes, all accepted. -/
theorem startWritesTheSignature : Obligations.StartWritesTheSignature := by
  intro own s rest hidle hlife hsink hans
  rw [exec_start_allowed hlife hsink, startSession_accepted (rest := rest) (by cases own <;> exact hans), hidle]
  cases own <;> rfl

/-- Settles O24: SinkOpen comes before OWN_SINK is written, the signature after it. -/
theorem startOnAFailingSink : Obligations.StartOnAFailingSink := by
  intro own s rest hidle hlife hsink signature
  refine ⟨fun hown hans => ?_, fun k b hb hans => ?_⟩
  · subst hown
    rw [exec_start_allowed hlife hsink, startSession_open_failed hans, hidle]
    rfl
  · have hopen : (openOps own).length = if own then 1 else 0 := by cases own <;> rfl
    refine ⟨_, exec_start_allowed hlife hsink, ?_, ?_⟩ <;> rw [startSession_signature_failed hb (hopen ▸ hans)]
    · refine (streamOf_afterFail ..).trans ?_
      rw [okRecords_append, streamOf_append, streamOf_okRecords_openOps, streamOf_okRecords_sinkWrites]
      rfl
    · rw [hidle, SinkPort.afterFail, okRecords_append, okRecords_sinkWrites]
      cases own <;> rfl

/-! ## ADD_FRAME (R182 to R185) -/

/-- The bytes of the frame that an ADD_FRAME accepted in `s` writes: steps 4 to 7 on the prepared frame (R182). -/
def addFrameBytes (s : State) : List Byte := frameBytes (prepareFrame s) (compressFrame (prepareFrame s)).2

section
variable {s : State} {rest : List SinkAnswer}

/-- Beside what steps 1 to 3 write, a submitted frame has changed the compressor and the sink port. -/
theorem submittedFrame_eq (s : State) (p : SinkPort) :
    submittedFrame s p = { s with
      width := (prepareFrame s).width, height := (prepareFrame s).height, sizeSet := true
      transIndex := (prepareFrame s).transIndex, frame := (prepareFrame s).frame
      lzw := (compressFrame (prepareFrame s)).1, sink := p } :=
  congrArg (fun q : State => { q with lzw := (compressFrame (prepareFrame s)).1, sink := p }) (prepareFrame_eq s)

theorem addFrame_allowed_iff : ¬ precondCause .addFrame s ↔ addFrameRefused s = false := by
  rw [← addFrameRefused_iff, Bool.not_eq_true]

/-- ADD_FRAME is allowed only while a session runs (R180). -/
theorem lifecycle_of_addFrame_allowed (h : addFrameRefused s = false) :
    s.lifecycle = .startedFirst ∨ s.lifecycle = .startedSubseq := by
  simp only [addFrameRefused, Bool.or_eq_false_iff, Bool.not_eq_false'] at h
  obtain ⟨⟨⟨hstarted, -⟩, -⟩, -⟩ := h
  exact (started_iff s).mp hstarted

/-- An ADD_FRAME that no precondition stops submits the prepared frame. -/
theorem exec_addFrame_allowed (h : ¬ precondCause .addFrame s) :
    exec .addFrame s = .next (submitFrame s (prepareFrame s)) := by
  rw [exec_addFrame, execAddFrame, if_neg (by simp [addFrame_allowed_iff.mp h])]

theorem submitFrame_accepted (h : s.sink.answers = List.replicate (addFrameBytes s).length .ok ++ rest) :
    submitFrame s (prepareFrame s)
      = completeFrame (submittedFrame s (s.sink.afterOk (sinkWrites (addFrameBytes s)) rest)) := by
  refine (offerThen_accepted .addFrame s _ _ _ _ rest ?_).trans ?_
  · rw [prepareFrame_sink, sinkWrites_length]
    exact h
  · simp [submittedFrame, SinkPort.afterOk, addFrameBytes]

theorem submitFrame_failed {k : Nat} {b : Byte} (hb : (addFrameBytes s)[k]? = some b)
    (h : s.sink.answers = List.replicate k .ok ++ .fail :: rest) :
    submitFrame s (prepareFrame s)
      = raiseCause .sinkError
          (submittedFrame s (s.sink.afterFail (sinkWrites ((addFrameBytes s).take k)) (.sinkWrite b) rest)) := by
  have hops := sinkWrites_eq_of_getElem? hb
  rw [addFrameBytes] at hops
  rw [submitFrame, hops]
  refine (offerThen_failed .addFrame s _ _ _ _ _ _ rest ?_).trans ?_
  · rw [prepareFrame_sink, ← addFrameBytes, length_sinkWrites_take hb, h]
  · simp [submittedFrame, SinkPort.afterFail, addFrameBytes]

end

/-- Settles O25: every write is accepted, and the completed frame is the submitted one in STARTED_SUBSEQ. -/
theorem addFrameWritesTheFrame : Obligations.AddFrameWritesTheFrame := by
  intro s rest hidle hallowed p bytes hans
  have hsubmitted := submitFrame_accepted (s := s) hans
  refine ⟨_, exec_addFrame_allowed hallowed, ?_, ?_⟩ <;> rw [hsubmitted]
  · rw [State.stream, completeFrame_sink]
    refine (streamOf_afterOk ..).trans ?_
    rw [streamOf_okRecords_sinkWrites]
    rfl
  · have hlife : (if s.lifecycle = .startedFirst then .startedSubseq else s.lifecycle) = Lifecycle.startedSubseq := by
      rcases lifecycle_of_addFrame_allowed (addFrame_allowed_iff.mp hallowed) with hs | hs <;> rw [hs] <;> rfl
    rw [submittedFrame_eq, completeFrame_eq, hlife, ← okRecords_sinkWrites, hidle]
    rfl

/-- Settles O26: the write of byte `k` fails, and `raise` leaves the submitted frame as it is. -/
theorem addFrameOnAFailingSink : Obligations.AddFrameOnAFailingSink := by
  intro s k b rest hidle hallowed p bytes hb hans
  have hsubmitted := submitFrame_failed (s := s) hb hans
  refine ⟨_, exec_addFrame_allowed hallowed, ?_, ?_⟩ <;> rw [hsubmitted]
  · refine (streamOf_afterFail ..).trans ?_
    rw [streamOf_okRecords_sinkWrites]
    rfl
  · rw [raiseCause_sinkError, submittedFrame_eq, ← okRecords_sinkWrites, hidle]
    rfl

/-! ## FINISH (R186, R187) -/

section
variable {s : State} {rest : List SinkAnswer}

/-- A FINISH of a running session offers its operations. -/
theorem exec_finish_started (h : s.lifecycle = .startedFirst ∨ s.lifecycle = .startedSubseq) :
    exec .finish s = .next (finishSession s) := by
  rw [exec_finish, execFinish, if_pos ((started_iff s).mpr h)]

theorem finishSession_accepted (h : s.sink.answers = List.replicate (finishOps s.ownSink).length .ok ++ rest) :
    finishSession s
      = finishCmd .ok (sessionReset { s with
          lifecycle := .finished, sink := s.sink.afterOk (finishOps s.ownSink) rest }) :=
  offerThen_accepted .finish s _ _ _ _ rest h

theorem finishSession_failed {pre post : List SinkOp} {op : SinkOp} (hops : finishOps s.ownSink = pre ++ op :: post)
    (h : s.sink.answers = List.replicate pre.length .ok ++ .fail :: rest) :
    finishSession s
      = raiseCause .sinkError (sessionReset { s with lifecycle := .finished, sink := s.sink.afterFail pre op rest }) := by
  rw [finishSession, hops]
  exact offerThen_failed .finish s _ pre op post _ _ rest h

end

/-- Settles O28: the session is reset after the operations, whether all were accepted or one failed. -/
theorem finishEndsTheSession : Obligations.FinishEndsTheSession := by
  intro s rest hidle hlife ops
  refine ⟨fun hans => ?_, fun pre op post hops hans => ?_⟩
  · rw [exec_finish_started hlife, finishSession_accepted (by exact hans), hidle]
    rfl
  · rw [exec_finish_started hlife, finishSession_failed (by exact hops) hans, raiseCause_sinkError, hidle]
    rfl

end Sys2Proof.Machine
end

section
/-! PROOFS. What steps 1 to 3 of ADD_FRAME leave, which dimensions a frame fixes, and how STATE moves (43_container R180, R182,
R183). -/

namespace Sys2Proof.Machine

/-! ## Steps 1 to 3 of ADD_FRAME (R182) -/

theorem opFw_eq_ofNat (s : State) : opFw s = BitVec.ofNat 16 (s.arg0.toNat % 65536) := by
  rw [← opFw_toNat, BitVec.ofNat_toNat, BitVec.setWidth_eq]

theorem opFh_eq_ofNat (s : State) : opFh s = BitVec.ofNat 16 (s.arg0.toNat / 65536) := by
  rw [← opFh_toNat, BitVec.ofNat_toNat, BitVec.setWidth_eq]

/-- Settles O60: the memories are those that indexing the frame in the session's size leaves, and TRANS_INDEX is searched for in
its palette. -/
theorem framePreparationFollowsStepsOneToThree : Obligations.FramePreparationFollowsStepsOneToThree := by
  intro s p fw fh w h pix q
  have hw : p.width = w := by rw [prepareFrame_width, opFw_eq_ofNat]
  have hh : p.height = h := by rw [prepareFrame_height, opFh_eq_ofNat]
  have hframe : p.frame =
      { pix := pix, pal := answerPalette q, palLen := (answerPalette q).length,
        used := usedBitmap (pix.map (answerMap q)), indexBuf := pix.map (answerMap q) } := by
    rw [prepareFrame_frame, adoptSize_eq, adoptSize_width, adoptSize_height, opFw_toNat, opFh_toNat, opFw_eq_ofNat,
      opFh_eq_ofNat]
    rfl
  have hmost : p.frame.pal.length ≤ 256 := hframe ▸ List.length_take_le ..
  refine ⟨hw ▸ hh ▸ prepareFrame_eq s, by rw [hframe], by rw [hframe], by rw [hframe], by rw [hframe], fun k => ?_,
    fun hvalid => ?_, fun hvalid => ?_⟩
  · rw [hframe]
    exact (getLsbD_usedBitmap _ k).trans List.mem_map
  · rw [prepareFrame_transIndex, hvalid]
    rfl
  · have hpal : p.frame.pal.take p.frame.palLen = p.frame.pal := by rw [hframe, List.take_length]
    rw [prepareFrame_transIndex, if_pos hvalid, hpal]
    exact nearestUsed_isNearestUsed _ _ hmost

/-! ## The dimensions (R183) -/

/-- Settles O27: an ADD_FRAME that completes and is not refused leaves the size registers as the prepared frame has them. -/
theorem firstFrameFixesTheDimensions : Obligations.FirstFrameFixesTheDimensions := by
  intro s t _ h hidle hresult
  rw [← opFw_eq_ofNat, ← opFh_eq_ofNat]
  cases exec_ending h with
  | waits hw => obtain ⟨recs, -, rfl⟩ := hw; simp at hidle
  | addFrameNotAllowed => exact absurd rfl hresult
  | addFrameFails | addFrameDone => simp [completeFrame_eq, submittedFrame_eq]

/-! ## The state machine (R180) -/

/-- A FINISH with no session running is PRECOND. -/
theorem exec_finish_not_started {s : State} (h : s.lifecycle = .unstarted ∨ s.lifecycle = .finished) :
    exec .finish s = .next (raiseCause .precondition s) := by
  rw [exec_finish, execFinish, if_neg (by simp [(not_started_iff s).mpr h])]

/-- Settles O50, ending by ending; a FINISH that is not PRECOND belongs to a running session. -/
theorem lifecycleFollowsTheStateMachine : Obligations.LifecycleFollowsTheStateMachine := by
  intro i s t h hidle
  cases exec_ending h with
  | waits hw => obtain ⟨recs, -, rfl⟩ := hw; simp at hidle
  | startWhileStarted _ hs => rcases (started_iff s).mp hs with hl | hl <;> simp [hl, causeCode]
  | startWithoutSink _ hs | startOpenFails _ hs | startSignatureFails _ hs | startDone _ hs =>
    rcases (not_started_iff s).mp hs with hl | hl <;> simp [hl, causeCode]
  | addFrameNotAllowed => simp +contextual [causeCode]
  | addFrameFails hr | addFrameDone hr =>
    rcases lifecycle_of_addFrame_allowed hr with hl | hl <;>
      simp [completeFrame_eq, submittedFrame_eq, hl, causeCode]
  | finishUnstarted hs => rcases (not_started_iff s).mp hs with hl | hl <;> simp [hl, causeCode]
  | finishFails | finishDone =>
    refine ⟨fun hl => ?_, fun _ => rfl⟩
    have hresult := congrArg State.result (Host.Outcome.next.inj ((exec_finish_not_started hl).symm.trans h))
    cases hresult
  | setSizeIgnored => simp
  | setSize hl => simp [hl]
  | setDelay | setRepeat | setDispose | setTransparent | clearTransparent | setQuality => exact ⟨rfl, rfl⟩

end Sys2Proof.Machine
end

section
/-! PROOFS. The stream of a session in which every command succeeded (43_container R198): what each command of the session adds, an
induction over the calls behind the first frame, and one over the calls up to it. -/

namespace Sys2Proof.Machine

/-! ## A command that completes with OK has had all its operations accepted -/

theorem offerThen_ok {i : Instr} {s0 s : State} {ops : List SinkOp} {onOk onFail : State → State}
    (hidle : (offerThen i s0 s ops onOk onFail).running = none) (hok : (offerThen i s0 s ops onOk onFail).result = .ok)
    (hFail : ∀ x, (onFail x).result ≠ .ok) : ∃ rest, s.sink.answers = List.replicate ops.length .ok ++ rest := by
  rcases sinkOffer_cases ops s.sink with
    ⟨rest, ha, -⟩ | ⟨pre, op, post, rest, rfl, ha, -⟩ | ⟨pre, op, post, rfl, ha, -⟩
  · exact ⟨rest, ha⟩
  · rw [offerThen_failed i s0 s pre op post _ _ rest ha] at hok
    exact absurd hok (hFail _)
  · rw [offerThen_unanswered i s0 s pre op post _ _ ha] at hidle
    simp at hidle

theorem raiseCause_result_ne_ok (c : Cause) (s : State) : (raiseCause c s).result ≠ .ok := by
  cases c <;> simp [causeCode]

theorem startSession_ok {own : Bool} {s : State} (hidle : (startSession own s (clearSticky s)).running = none)
    (hok : (startSession own s (clearSticky s)).result = .ok) :
    ∃ rest, s.sink.answers = List.replicate (openOps own ++ sinkWrites signatureBytes).length .ok ++ rest := by
  obtain ⟨mid, hopen⟩ := offerThen_ok hidle hok (raiseCause_result_ne_ok _)
  rw [startSession, offerThen_accepted (.start own) s (clearSticky s) _ _ _ mid hopen] at hidle hok
  obtain ⟨rest, hsignature⟩ := offerThen_ok hidle hok (raiseCause_result_ne_ok _)
  obtain rfl : mid = List.replicate (sinkWrites signatureBytes).length .ok ++ rest := hsignature
  exact ⟨rest, by rw [List.length_append, ← List.replicate_append_replicate, List.append_assoc]; exact hopen⟩

/-- A START that succeeds has passed its checks. -/
theorem start_allowed_of_ok {own : Bool} {s t : State} (h : exec (.start own) s = .next t) (hok : t.result = .ok) :
    ¬ (s.started = true ∨ (own = false ∧ s.sink.present = false)) := by
  intro hrefused
  rw [exec_start, execStart] at h
  split at h
  next => cases h; exact raiseCause_result_ne_ok _ _ hok
  next hstarted =>
    rw [if_pos (hrefused.resolve_left hstarted)] at h
    cases h
    exact raiseCause_result_ne_ok _ _ hok

section
variable {i : Instr} {s t : State} (h : exec i s = .next t) (hidle : t.running = none) (hok : t.result = .ok)
include h hidle hok

theorem exec_ok_answers : ∃ rest, s.sink.answers = List.replicate (sinkOps i s).length .ok ++ rest := by
  cases i with
  | start own =>
    have hallowed := start_allowed_of_ok h hok
    obtain ⟨hstarted, hsink⟩ := not_or.mp hallowed
    rw [exec_start, execStart, if_neg hstarted, if_neg hsink] at h
    cases h
    rw [sinkOps, if_neg hallowed]
    exact startSession_ok hidle hok
  | addFrame =>
    rw [exec_addFrame, execAddFrame] at h
    split at h <;> cases h
    next => exact absurd hok (raiseCause_result_ne_ok _ _)
    next hallowed =>
      obtain ⟨rest, hans⟩ := offerThen_ok hidle hok (raiseCause_result_ne_ok _)
      rw [sinkOps, if_neg hallowed]
      exact ⟨rest, (prepareFrame_sink s).symm ▸ hans⟩
  | finish =>
    rw [exec_finish, execFinish] at h
    split at h <;> cases h
    next hstarted =>
      obtain ⟨rest, hans⟩ := offerThen_ok hidle hok fun _ => raiseCause_result_ne_ok _ _
      rw [sinkOps, if_pos hstarted]
      exact ⟨rest, hans⟩
    next => exact absurd hok (raiseCause_result_ne_ok _ _)
  | setDelay | setRepeat | setDispose | setTransparent | clearTransparent | setSize | setQuality => exact ⟨_, rfl⟩

/-- The stream gains the bytes of the command's operations (20_memory R67). -/
theorem exec_ok_stream : t.stream = s.stream ++ streamOf (okRecords (sinkOps i s)) := by
  obtain ⟨rest, hans⟩ := exec_ok_answers h hidle hok
  rw [State.stream, exec_sink h, sinkOffer_accepted _ _ rest hans]
  exact streamOf_append ..

end

/-! ## What each command of a session adds (R181, R182, R186) -/

/-- The session has had its first frame, which fixed the dimensions w × h for all later ones (R183). -/
def Sized (w h : Half) (s : State) : Prop :=
  s.lifecycle = .startedSubseq ∧ s.sizeSet = true ∧ s.width = w ∧ s.height = h

/-- A frame in a sized session has the session's dimensions. -/
theorem Sized.prepareFrame_size {w h : Half} {s : State} (hs : Sized w h s) :
    (prepareFrame s).width = w ∧ (prepareFrame s).height = h := by
  obtain ⟨-, hset, hwidth, hheight⟩ := hs
  rw [prepareFrame_width, prepareFrame_height, if_pos hset, if_pos hset]
  exact ⟨hwidth, hheight⟩

section
variable {s t : State} (hidle : t.running = none) (hok : t.result = .ok)
include hidle hok

/-- A START that succeeds begins a session and adds the signature. -/
theorem start_ok {own : Bool} (h : exec (.start own) s = .next t) :
    t.lifecycle = .startedFirst ∧ t.stream = s.stream ++ signatureBytes := by
  have hallowed := start_allowed_of_ok h hok
  have hnot : s.lifecycle = .unstarted ∨ s.lifecycle = .finished := by
    rw [← not_started_iff, ← Bool.not_eq_true]
    exact fun hs => hallowed (.inl hs)
  refine ⟨?_, ?_⟩
  · rw [(lifecycleFollowsTheStateMachine (.start own) s t h hidle).1 hnot, if_pos hok]
  · rw [exec_ok_stream h hidle hok, sinkOps, if_neg hallowed, okRecords_append, streamOf_append, streamOf_okRecords_openOps,
      streamOf_okRecords_sinkWrites, List.nil_append]

/-- A FINISH that succeeds adds the trailer. -/
theorem finish_ok (h : exec .finish s = .next t) : t.stream = s.stream ++ trailerBytes := by
  have hstarted : s.started = true := by
    by_contra hnot
    rw [exec_finish_not_started ((not_started_iff s).mp (by simpa using hnot))] at h
    cases h
    exact raiseCause_result_ne_ok _ _ hok
  have hbytes : streamOf (okRecords (finishOps s.ownSink)) = trailerBytes := by cases s.ownSink <;> rfl
  rw [exec_ok_stream h hidle hok, sinkOps, if_pos hstarted, hbytes]

/-- An ADD_FRAME that succeeds adds its frame's bytes, and from then on the dimensions are that frame's. -/
theorem addFrame_ok (h : exec .addFrame s = .next t) :
    addFrameRefused s = false ∧ Sized (prepareFrame s).width (prepareFrame s).height t ∧
      t.stream = s.stream ++ addFrameBytes s := by
  cases exec_ending h with
  | waits hw => obtain ⟨recs, -, rfl⟩ := hw; simp at hidle
  | addFrameNotAllowed | addFrameFails => exact absurd hok (raiseCause_result_ne_ok _ _)
  | addFrameDone hr p =>
    refine ⟨hr, ?_, ?_⟩
    · rcases lifecycle_of_addFrame_allowed hr with hl | hl <;>
        simp [Sized, completeFrame_eq, submittedFrame_eq, hl]
    · rw [exec_ok_stream h hidle hok, sinkOps, if_neg (by simp [hr]), streamOf_okRecords_sinkWrites]
      rfl

/-- The other commands that succeed in a session leave STATE and the stream alone, and after the first frame the dimensions. -/
theorem other_ok {i : Instr} (hexec : exec i s = .next t) (hs : s.started = true) (hadd : i ≠ .addFrame)
    (hfinish : i ≠ .finish) :
    t.lifecycle = s.lifecycle ∧ t.stream = s.stream ∧ ∀ w h : Half, Sized w h s → Sized w h t := by
  cases exec_ending hexec with
  | waits hw => obtain ⟨recs, -, rfl⟩ := hw; simp at hidle
  | startWhileStarted => exact absurd hok (raiseCause_result_ne_ok _ _)
  | startWithoutSink _ hnot | startOpenFails _ hnot | startSignatureFails _ hnot | startDone _ hnot => simp [hs] at hnot
  | addFrameNotAllowed | addFrameFails | addFrameDone => exact absurd rfl hadd
  | finishUnstarted | finishFails | finishDone => exact absurd rfl hfinish
  | setSize hl => exact ⟨rfl, rfl, fun _ _ hsized => absurd hsized.1 hl⟩
  | setSizeIgnored | setDelay | setRepeat | setDispose | setTransparent | clearTransparent | setQuality =>
    exact ⟨rfl, rfl, fun _ _ hsized => hsized⟩

end

/-! ## The parts of the grammar (R198) -/

theorem isScreenDescriptor_lsdBytes (s : State) : isScreenDescriptor s.width s.height (lsdBytes s) := rfl

theorem isLoopPart_loopExtBytes (s : State) :
    isLoopPart s.repeatCount (if 0 ≤ s.repeatCount.toInt then loopExtBytes s else []) := rfl

theorem isControlBlock_gceBytes (s : State) : isControlBlock (gceBytes s) := ⟨_, _, _, _, rfl⟩

theorem isImageDescriptor_imageDescBytes (s : State) :
    isImageDescriptor s.width s.height (imageDescPacked s) (imageDescBytes s) := rfl

section
variable {s : State} (h : addFrameRefused s = false)
include h

theorem isFrameData_compressFrame :
    isFrameData (prepareFrame s).width (prepareFrame s).height (compressFrame (prepareFrame s)).2 := by
  have hlen := (prepareFrame_frame_fits h).indexed
  rw [prepareFrame_pix_length, ← prepareFrame_pixels] at hlen
  exact ⟨_, _, hlen, rfl⟩

theorem prepareFrame_palette_length : (paletteBytes (prepareFrame s).frame).length = 768 :=
  have hfits := prepareFrame_frame_fits h
  paletteBytes_length hfits.palLen hfits.palFits

theorem isFirstFrame_addFrameBytes (hl : s.lifecycle = .startedFirst) :
    isFirstFrame (prepareFrame s).width (prepareFrame s).height s.repeatCount (addFrameBytes s) := by
  have hfirst : (prepareFrame s).lifecycle = .startedFirst := by rw [prepareFrame_lifecycle, hl]
  have hdesc := isImageDescriptor_imageDescBytes (prepareFrame s)
  rw [imageDescPacked, if_pos hfirst] at hdesc
  rw [← prepareFrame_repeatCount]
  exact ⟨_, _, _, _, _, _, frameBytes_startedFirst _ hfirst, isScreenDescriptor_lsdBytes _, prepareFrame_palette_length h,
    isLoopPart_loopExtBytes _, isControlBlock_gceBytes _, hdesc, isFrameData_compressFrame h⟩

theorem isLaterFrame_addFrameBytes (hl : s.lifecycle = .startedSubseq) :
    isLaterFrame (prepareFrame s).width (prepareFrame s).height (addFrameBytes s) := by
  have hlater : (prepareFrame s).lifecycle = .startedSubseq := by rw [prepareFrame_lifecycle, hl]
  have hdesc := isImageDescriptor_imageDescBytes (prepareFrame s)
  rw [imageDescPacked, if_neg (by simp [hl])] at hdesc
  exact ⟨_, _, _, _, frameBytes_startedSubseq _ hlater, isControlBlock_gceBytes _, hdesc, prepareFrame_palette_length h,
    isFrameData_compressFrame h⟩

end

/-! ## The frames of a run of calls -/

/-- The calls, run from `s` to `t`, have added one block group to the stream for each ADD_FRAME. -/
def AddsFrames (calls : List CommandCall) (s t : State) (frames : List (List Byte)) : Prop :=
  t.stream = s.stream ++ frames.flatten ∧ frames.length = (calls.filter fun c => c.instr = .addFrame).length

theorem AddsFrames.nil (s : State) : AddsFrames [] s s [] := ⟨(List.append_nil _).symm, rfl⟩

section
variable {c : CommandCall} {calls : List CommandCall} {s u t : State} {frames : List (List Byte)}

/-- An ADD_FRAME before the calls adds its group before theirs. -/
theorem AddsFrames.cons_addFrame {f : List Byte} (h : AddsFrames calls u t frames) (hc : c.instr = .addFrame)
    (hu : u.stream = s.stream ++ f) : AddsFrames (c :: calls) s t (f :: frames) := by
  obtain ⟨hstream, hcount⟩ := h
  refine ⟨by rw [hstream, hu, List.append_assoc, List.flatten_cons], ?_⟩
  rw [List.filter_cons_of_pos (by simpa using hc), List.length_cons, List.length_cons, hcount]

/-- A command before the calls that adds nothing to the stream adds no group. -/
theorem AddsFrames.cons_other (h : AddsFrames calls u t frames) (hc : c.instr ≠ .addFrame) (hu : u.stream = s.stream) :
    AddsFrames (c :: calls) s t frames := by
  obtain ⟨hstream, hcount⟩ := h
  refine ⟨by rw [hstream, hu], ?_⟩
  rw [List.filter_cons_of_neg (by simpa using hc), hcount]

end

/-- Behind the first frame every ADD_FRAME adds a later frame of the session's dimensions. -/
theorem runAllOk_sized {w h : Half} {calls : List CommandCall} {s t : State} (hs : Sized w h s)
    (hfinish : ∀ c ∈ calls, c.instr ≠ .finish) (hrun : runAllOk calls s = some t) :
    ∃ frames, AddsFrames calls s t frames ∧ ∀ g ∈ frames, isLaterFrame w h g := by
  induction calls generalizing s with
  | nil =>
    obtain rfl : s = t := Option.some.inj hrun
    exact ⟨[], .nil s, by simp⟩
  | cons c calls ih =>
    obtain ⟨u, hexec, hidle, hok, hrest⟩ := runAllOk_cons.mp hrun
    obtain ⟨hc, hcalls⟩ := List.forall_mem_cons.mp hfinish
    have hsized : Sized w h (withCall c s) := hs
    by_cases hadd : c.instr = .addFrame
    · rw [hadd] at hexec
      obtain ⟨hallowed, hu, hstream⟩ := addFrame_ok hidle hok hexec
      have hframe := isLaterFrame_addFrameBytes hallowed hsized.1
      obtain ⟨hwidth, hheight⟩ := hsized.prepareFrame_size
      rw [hwidth, hheight] at hu hframe
      obtain ⟨frames, hframes, hlater⟩ := ih hu hcalls hrest
      exact ⟨_ :: frames, hframes.cons_addFrame hadd hstream, List.forall_mem_cons.mpr ⟨hframe, hlater⟩⟩
    · obtain ⟨-, hstream, hkeep⟩ := other_ok hidle hok hexec ((started_iff _).mpr (.inr hsized.1)) hadd hc
      obtain ⟨frames, hframes, hlater⟩ := ih (hkeep w h hsized) hcalls hrest
      exact ⟨frames, hframes.cons_other hadd hstream, hlater⟩

/-- The group `f` is the first frame of the calls run from `s`, with the REPEAT that it finds, and `later` are later frames of the
same dimensions. -/
def BeginsWith (calls : List CommandCall) (s : State) (f : List Byte) (later : List (List Byte)) : Prop :=
  ∃ (w h : Half) (pre : List CommandCall) (c : CommandCall) (post : List CommandCall) (u : State),
    calls = pre ++ c :: post ∧ c.instr = .addFrame ∧ (∀ d ∈ pre, d.instr ≠ .addFrame) ∧ runAllOk pre s = some u ∧
      isFirstFrame w h u.repeatCount f ∧ ∀ g ∈ later, isLaterFrame w h g

/-- A command before the calls that is no ADD_FRAME leaves their first frame the first. -/
theorem BeginsWith.cons_other {c : CommandCall} {calls : List CommandCall} {s u : State} {f : List Byte}
    {later : List (List Byte)} (hbegins : BeginsWith calls u f later) (hc : c.instr ≠ .addFrame)
    (hrun : runAllOk [c] s = some u) : BeginsWith (c :: calls) s f later := by
  obtain ⟨w, h, pre, d, post, v, rfl, hd, hpre, hv, hfirst, hlater⟩ := hbegins
  refine ⟨w, h, c :: pre, d, post, v, rfl, hd, List.forall_mem_cons.mpr ⟨hc, hpre⟩, ?_, hfirst, hlater⟩
  rw [← List.singleton_append, runAllOk_append, hrun]
  exact hv

/-- From STARTED_FIRST the first ADD_FRAME adds the first frame, and the others later ones. -/
theorem runAllOk_startedFirst {calls : List CommandCall} {s t : State} (hs : s.lifecycle = .startedFirst)
    (hfinish : ∀ c ∈ calls, c.instr ≠ .finish) (hrun : runAllOk calls s = some t) :
    ∃ frames, AddsFrames calls s t frames ∧ ∀ f later, frames = f :: later → BeginsWith calls s f later := by
  induction calls generalizing s with
  | nil =>
    obtain rfl : s = t := Option.some.inj hrun
    exact ⟨[], .nil s, by simp⟩
  | cons c calls ih =>
    obtain ⟨u, hexec, hidle, hok, hrest⟩ := runAllOk_cons.mp hrun
    obtain ⟨hc, hcalls⟩ := List.forall_mem_cons.mp hfinish
    by_cases hadd : c.instr = .addFrame
    · rw [hadd] at hexec
      obtain ⟨hallowed, hu, hstream⟩ := addFrame_ok hidle hok hexec
      obtain ⟨frames, hframes, hlater⟩ := runAllOk_sized hu hcalls hrest
      refine ⟨_ :: frames, hframes.cons_addFrame hadd hstream, ?_⟩
      rintro f later ⟨⟩
      exact ⟨_, _, [], c, calls, s, rfl, hadd, by simp, rfl, isFirstFrame_addFrameBytes hallowed hs, hlater⟩
    · obtain ⟨hlife, hstream, -⟩ := other_ok hidle hok hexec ((started_iff _).mpr (.inl hs)) hadd hc
      obtain ⟨frames, hframes, hbegins⟩ := ih (hlife.trans hs) hcalls hrest
      have hstep : runAllOk [c] s = some u := runAllOk_cons.mpr ⟨u, hexec, hidle, hok, rfl⟩
      exact ⟨frames, hframes.cons_other hadd hstream, fun f later hf => (hbegins f later hf).cons_other hadd hstep⟩

/-- Settles O40: the signature is START's, the groups are those of the calls from STARTED_FIRST, the trailer is FINISH's. -/
theorem successfulSessionFollowsTheGrammar : Obligations.SuccessfulSessionFollowsTheGrammar := by
  intro s t own first last calls _ _ hfirst hlast hfinish hrun
  rw [runAllOk_append, Option.bind_eq_some_iff] at hrun
  obtain ⟨v, hv, hend⟩ := hrun
  obtain ⟨u, hstart, huidle, huok, hcalls⟩ := runAllOk_cons.mp hv
  obtain ⟨t', hlastexec, htidle, htok, ht⟩ := runAllOk_cons.mp hend
  obtain rfl : t' = t := Option.some.inj ht
  have hstep : runAllOk [first] s = some u := runAllOk_cons.mpr ⟨u, hstart, huidle, huok, rfl⟩
  rw [hfirst] at hstart
  rw [hlast] at hlastexec
  obtain ⟨hlife, hsignature⟩ := start_ok huidle huok hstart
  obtain ⟨frames, ⟨hstream, hcount⟩, hbegins⟩ := runAllOk_startedFirst hlife hfinish hcalls
  have htrailer := finish_ok htidle htok hlastexec
  rw [withCall_stream] at hsignature htrailer
  refine ⟨frames.flatten, frames, by rw [htrailer, hstream, hsignature]; rfl, rfl, hcount, fun f later hf => ?_⟩
  obtain ⟨w, h, pre, c, post, x, hsplit, hc, hpre, hx, hframes⟩ := hbegins f later hf
  refine ⟨w, h, pre, c, post, x, hsplit, hc, hpre, ?_, hframes⟩
  rw [← List.singleton_append, runAllOk_append, hstep]
  exact hx

end Sys2Proof.Machine
end

section
/-! PROOFS. The configuration commands: each writes its own register and RESULT and nothing else, and what the stored values
then mean for the bytes of a frame (44_config R220 to R226). -/

namespace Sys2Proof.Machine

/-! ## Ending a command when none was waiting -/

/-- `finish` of a command that never waited writes RESULT alone. -/
theorem finishCmd_of_idle (code : ResultCode) {s : State} (hidle : s.running = none) :
    finishCmd code s = { s with result := code } := by
  rw [finishCmd, ← hidle]

/-! ## The stored values as numbers (30_encoding R93) -/

/-- The low part of a word above bit `start`, by division. -/
theorem extractLsb'_eq_ofNat_div {n : Nat} (x : BitVec n) (start len : Nat) :
    x.extractLsb' start len = BitVec.ofNat len (x.toNat / 2 ^ start) := by
  rw [BitVec.extractLsb', Nat.shiftRight_eq_div_pow]

/-- The components of SET_TRANSPARENT's colour as numbers. -/
theorem opColour_eq_ofNat (s : State) :
    opColour s =
      { r := BitVec.ofNat 8 (s.arg0.toNat / 65536 % 256)
        g := BitVec.ofNat 8 (s.arg0.toNat / 256 % 256)
        b := BitVec.ofNat 8 (s.arg0.toNat % 256) } := by
  simp only [opColour, extractLsb'_eq_ofNat_div, ofNat_byte_mod, Nat.reducePow, Nat.div_one]

/-- A half that takes a default when it is zero, as a number. -/
theorem defaulted_eq_ofNat (default x : Half) :
    (if x = 0#16 then default else x) = BitVec.ofNat 16 (if x.toNat = 0 then default.toNat else x.toNat) := by
  by_cases hx : x = 0#16
  · simp [hx]
  · have hne : x.toNat ≠ 0 := fun h => hx (BitVec.eq_of_toNat_eq h)
    simp [hx, hne]

/-- The word that stands for a negative value is that of −1. -/
theorem clampNegative_eq (w : Word) : clampNegative w = if 0 ≤ w.toInt then w else BitVec.ofInt 32 (-1) := rfl

/-! ## SET_DELAY, SET_TRANSPARENT, SET_SIZE, SET_QUALITY (R220, R223, R225, R226) -/

/-- Settles O15: the 16-bit register reduces the rounded delay modulo 2^16. -/
theorem setDelayRoundsToHundredths : Obligations.SetDelayRoundsToHundredths := by
  intro s hidle
  have hmod : BitVec.ofNat 16 ((s.arg0.toNat + 5) / 10 % 65536) = BitVec.ofNat 16 ((s.arg0.toNat + 5) / 10) :=
    BitVec.eq_of_toNat_eq (Nat.mod_mod _ 65536)
  rw [exec_setDelay, execSetDelay, finishCmd_of_idle .ok (by exact hidle), hmod, opMs]

/-- Settles O18: the operand's three low bytes. -/
theorem setTransparentStoresTheColour : Obligations.SetTransparentStoresTheColour := by
  intro s hidle
  rw [exec_setTransparent, execSetTransparent, finishCmd_of_idle .ok (by exact hidle), opColour_eq_ofNat]

/-- Settles O20, by the branch of SET_SIZE; ADD_FRAME's and SET_SIZE's operands are the same halves of ARG0. -/
theorem setSizeFixesTheDimensions : Obligations.SetSizeFixesTheDimensions := by
  intro s hidle
  have hw : (opW s).toNat = s.arg0.toNat % 65536 := opFw_toNat s
  have hh : (opH s).toNat = s.arg0.toNat / 65536 := opFh_toNat s
  rw [exec_setSize, execSetSize]
  split
  case isTrue => rw [finishCmd_of_idle .ok hidle]
  case isFalse =>
    rw [finishCmd_of_idle .ok (by exact hidle), defaulted_eq_ofNat, defaulted_eq_ofNat, hw, hh]
    rfl

/-- Settles O21: the model's own comparison. -/
theorem setQualityStoresAtLeastOne : Obligations.SetQualityStoresAtLeastOne := by
  intro s hidle
  rw [exec_setQuality, execSetQuality, finishCmd_of_idle .ok (by exact hidle), opSigned]

/-! ## SET_REPEAT and where REPEAT reaches the stream (R221, 43_container R191) -/

/-- Behind the first frame no block shows REPEAT. -/
theorem frameBytes_repeatCount_of_startedSubseq {s : State} (n : Word) (data : List Byte)
    (h : s.lifecycle = .startedSubseq) : frameBytes { s with repeatCount := n } data = frameBytes s data := by
  rw [frameBytes_startedSubseq data h, frameBytes_startedSubseq data (by exact h)]
  rfl

/-- The count stands in the looping extension behind 16 fixed bytes. -/
theorem loopExtBytes_count (s : State) : ((loopExtBytes s).drop 16).take 2 = emitLE16 s.repeatCount.toNat := rfl

/-- Settles O16: the stored value, the blocks of a later frame, and the two bytes of the count. -/
theorem setRepeatStoresOrMeansNone : Obligations.SetRepeatStoresOrMeansNone := by
  refine ⟨fun s hidle => ?_, fun s n data => frameBytes_repeatCount_of_startedSubseq n data, fun s => ?_⟩
  · rw [exec_setRepeat, execSetRepeat, finishCmd_of_idle .ok (by exact hidle), clampNegative_eq]
  · rw [loopExtBytes_count, emitLE16_eq_mod_div, ofNat_byte_mod (s.repeatCount.toNat / 256)]

/-! ## SET_DISPOSE (R222, 43_container R193) -/

/-- Settles O17: the stored value, and the method that the control block takes from it. -/
theorem setDisposeStoresOrMeansDefault : Obligations.SetDisposeStoresOrMeansDefault := by
  refine ⟨fun s hidle => ?_, disposalMethod_toNat⟩
  rw [exec_setDispose, execSetDispose, finishCmd_of_idle .ok (by exact hidle), clampNegative_eq]

/-! ## CLEAR_TRANSPARENT and the control blocks after it (R224, 43_container R192) -/

/-- A control block, byte by byte. -/
theorem gceBytes_eq (s : State) :
    gceBytes s = [0x21#8, 0xF9#8, 0x04#8, gcePacked s, s.delayCs.extractLsb' 0 8, s.delayCs.extractLsb' 8 8,
      s.transIndex, 0x00#8] := rfl

/-- The lowest bit of the packed byte is the transparency flag. -/
theorem gcePacked_getLsbD_zero (s : State) : (gcePacked s).getLsbD 0 = s.transp.valid := by
  rw [gcePacked, BitVec.getLsbD_append]
  simp

/-- TRANSP reads 0 when no colour is valid and the colour kept is 0. -/
theorem transpWord_eq_zero {s : State} (h : s.transp = { valid := false, colour := { r := 0#8, g := 0#8, b := 0#8 } }) :
    transpWord s = 0#32 := by
  rw [transpWord, h]
  decide

theorem exec_clearTransparent_of_idle {s : State} (hidle : s.running = none) :
    exec .clearTransparent s
      = .next { s with transp := { valid := false, colour := { r := 0#8, g := 0#8, b := 0#8 } }, result := .ok } := by
  rw [exec_clearTransparent, execClearTransparent, finishCmd_of_idle .ok (by exact hidle)]

/-- Settles O19: TRANSP is 0, and a control block takes its flag from TRANSP and its index from TRANS_INDEX. -/
theorem clearTransparentClearsTransp : Obligations.ClearTransparentClearsTransp := by
  intro s hidle
  refine ⟨_, exec_clearTransparent_of_idle hidle, transpWord_eq_zero rfl, rfl, rfl,
    fun u htransp (hindex : u.transIndex = s.transIndex) => ⟨_, _, _, hindex ▸ gceBytes_eq u, ?_⟩⟩
  rw [gcePacked_getLsbD_zero, htransp]

end Sys2Proof.Machine
end

section
/-! PROOFS. The block takes no trap: a step without an input, the causes of PRECOND and what a PRECOND command leaves alone, and
a CMD write dropped while a command runs, which leaves no trace but OVERRUN (60 R241, R244, R246, R249, R255, 70 R268). -/

namespace Sys2Proof.Machine

/-! ## No trap, and no input (R246, R249, R255) -/

/-- Settles O47: every command completes or waits, and both are next states. -/
theorem everyCommandAnswersANextState : Obligations.EveryCommandAnswersANextState :=
  fun i s => (exec_completes_or_waits i s).imp fun _ h => h.1

theorem idleStep_of_idle {s : State} (h : s.running = none) : idleStep s = .next s := by
  rw [idleStep, if_neg (by simp [busy_eq_true_iff, h])]

theorem idleStep_of_running {s : State} (h : s.running ≠ none) : idleStep s = .fault .sinkHang := by
  rw [idleStep, if_pos ((busy_eq_true_iff s).mpr h)]

/-- Settles O12: a step without an input is the idle step, which depends on BUSY alone. -/
theorem noInputLeavesIdleOrStuck : Obligations.NoInputLeavesIdleOrStuck :=
  fun _ hin => ⟨fun h => (step_of_no_input hin).trans (idleStep_of_idle h),
    fun h => (step_of_no_input hin).trans (idleStep_of_running h)⟩

/-! ## PRECOND (R241) -/

theorem precondCause_start_iff (own : Bool) (s : State) :
    precondCause (.start own) s ↔ s.started = true ∨ (own = false ∧ s.sink.present = false) := by
  rw [started_iff, or_assoc]
  rfl

/-- `raise Precondition` of a command that never waited writes RESULT alone. -/
theorem raise_precondition_of_idle {s : State} (hidle : s.running = none) :
    raiseCause .precondition s = { s with result := .precond } := by
  simp [raiseCause, causeCode, finishCmd, hidle]

theorem exec_start_while_started (own : Bool) {s : State} (h : s.started = true) :
    exec (.start own) s = .next (raiseCause .precondition s) := by
  rw [exec_start, execStart, if_pos h]

theorem exec_start_without_sink {s : State} (hs : s.started = false) (hsink : s.sink.present = false) :
    exec (.start false) s = .next (raiseCause .precondition (clearSticky s)) := by
  rw [exec_start, execStart, if_neg (by simp [hs]), if_pos ⟨rfl, hsink⟩]

theorem exec_addFrame_not_allowed {s : State} (h : precondCause .addFrame s) :
    exec .addFrame s = .next (raiseCause .precondition s) := by
  rw [exec_addFrame, execAddFrame, if_pos ((addFrameRefused_iff s).mpr h)]

/-- A command that has completed in `t` has not ended with PRECOND. -/
def NotPrecond (t : State) : Prop := t.running = none → t.result ≠ .precond

theorem notPrecond_of_waits {i : Instr} {s t : State} (h : Waits i s t) : NotPrecond t := by
  obtain ⟨recs, -, rfl⟩ := h
  intro hidle
  cases hidle

/-- Past its checks a START completes with OK or SINK. -/
theorem startSession_notPrecond (own : Bool) (s : State) : NotPrecond (startSession own s (clearSticky s)) := by
  refine offerThen_cases (.of_same_sink rfl rfl) (fun p hp => ?_) (fun _ _ => nofun) (fun _ => notPrecond_of_waits)
  exact offerThen_cases hp (fun _ _ _ => nofun) (fun _ _ => nofun) (fun _ => notPrecond_of_waits)

/-- A command that completes with PRECOND has a cause. -/
theorem precondCause_of_result {i : Instr} {s t : State} (h : exec i s = .next t) (hidle : t.running = none)
    (hresult : t.result = .precond) : precondCause i s := by
  cases exec_ending h with
  | waits hw => obtain ⟨recs, -, rfl⟩ := hw; simp at hidle
  | startWhileStarted own hs => exact (precondCause_start_iff own s).mpr (.inl hs)
  | startWithoutSink own hs =>
    by_contra hcause
    have hsink : own = false → s.sink.present = true := by simpa [precondCause_start_iff, hs] using hcause
    have hstart := Host.Outcome.next.inj (h.symm.trans (exec_start_allowed ((not_started_iff s).mp hs) hsink))
    exact startSession_notPrecond own s (hstart ▸ hidle) (hstart ▸ hresult)
  | addFrameNotAllowed hr => exact (addFrameRefused_iff s).mp hr
  | finishUnstarted hs => exact (not_started_iff s).mp hs
  | addFrameDone => simp [completeFrame_eq] at hresult
  | startOpenFails | startSignatureFails | startDone | addFrameFails | finishFails | finishDone | setDelay | setRepeat
  | setDispose | setTransparent | clearTransparent | setSizeIgnored | setSize | setQuality => cases hresult

/-- Settles O22: each cause stops its command before it writes anything, but for START's sticky clear. -/
theorem preconditionExactlyOnItsCauses : Obligations.PreconditionExactlyOnItsCauses := by
  refine fun i s hidle => ⟨fun hcause => ?_, fun hnone t h ht hresult => hnone (precondCause_of_result h ht hresult)⟩
  cases i with
  | start own =>
    cases hs : s.started with
    | true => simp [exec_start_while_started own hs, raise_precondition_of_idle hidle]
    | false =>
      obtain ⟨rfl, hsink⟩ : own = false ∧ s.sink.present = false := by simpa [precondCause_start_iff, hs] using hcause
      rw [exec_start_without_sink hs hsink, raise_precondition_of_idle (by exact hidle)]
      simp [clearSticky]
  | addFrame => simp [exec_addFrame_not_allowed hcause, raise_precondition_of_idle hidle]
  | finish => simp [exec_finish_not_started hcause, raise_precondition_of_idle hidle]
  | setDelay | setRepeat | setDispose | setTransparent | clearTransparent | setSize | setQuality => exact hcause.elim

/-! ## A CMD write while BUSY = 1 (R244) -/

theorem issueCommand_running (w : Word) {s : State} {r : Running} (h : s.running = some r) :
    issueCommand w s = .next (dropCommand r s) := by
  simp [issueCommand, h]

/-- The state with another value of OVERRUN. -/
def State.withOverrun (b : Bool) (s : State) : State := { s with overrun := b }

/-- `t` is `s` but for OVERRUN. -/
def SameButOverrun (s t : State) : Prop := t = s.withOverrun t.overrun

/-- The rule for the same operations offered in two runs: they end alike, and then their continuations do. -/
theorem offerThen_related {R : State → State → Prop} {i : Instr} {s0 s0' s s' : State} {ops : List SinkOp}
    {onOk onOk' onFail onFail' : State → State} (hsink : s'.sink = s.sink)
    (hOk : ∀ p : SinkPort, R (onOk { s with sink := p }) (onOk' { s' with sink := p }))
    (hFail : ∀ p : SinkPort, R (onFail { s with sink := p }) (onFail' { s' with sink := p }))
    (hWait : ∀ p : SinkPort, R (waitForSink i s0 p) (waitForSink i s0' p)) :
    R (offerThen i s0 s ops onOk onFail) (offerThen i s0' s' ops onOk' onFail') := by
  simp only [offerThen, hsink]
  obtain ⟨p, stop⟩ := sinkOffer ops s.sink
  cases stop with
  | accepted => exact hOk p
  | failed => exact hFail p
  | unanswered => exact hWait p

/-- A START past its state check has cleared OVERRUN before its first operation, in both runs. -/
theorem startSession_withOverrun (own b : Bool) (s : State) :
    SameButOverrun (startSession own s (clearSticky s))
      (startSession own (s.withOverrun b) (clearSticky (s.withOverrun b))) :=
  offerThen_related rfl (fun _ => offerThen_related rfl (fun _ => rfl) (fun _ => rfl) (fun _ => rfl)) (fun _ => rfl)
    (fun _ => rfl)

theorem finishSession_withOverrun (b : Bool) (s : State) :
    SameButOverrun (finishSession s) (finishSession (s.withOverrun b)) :=
  offerThen_related rfl (fun _ => rfl) (fun _ => rfl) (fun _ => rfl)

theorem prepareFrame_withOverrun (b : Bool) (s : State) :
    prepareFrame (s.withOverrun b) = (prepareFrame s).withOverrun b := by
  have hsame : SameOffers s (s.withOverrun b) := rfl
  rw [prepareFrame_sameOffers hsame]
  simp [State.withOverrun]

theorem submitFrame_withOverrun (b : Bool) (s : State) :
    SameButOverrun (submitFrame s (prepareFrame s)) (submitFrame (s.withOverrun b) (prepareFrame (s.withOverrun b))) := by
  have hcompress (q : State) : compressFrame (q.withOverrun b) = compressFrame q := rfl
  have hbytes (q : State) (data : List Byte) : frameBytes (q.withOverrun b) data = frameBytes q data := rfl
  rw [prepareFrame_withOverrun, submitFrame, submitFrame, hcompress, hbytes]
  refine offerThen_related rfl (fun _ => ?_) (fun _ => rfl) (fun _ => rfl)
  rw [completeFrame_eq, completeFrame_eq]
  rfl

/-- No command looks at OVERRUN: with another value there, it ends as it would have, OVERRUN aside. -/
theorem exec_withOverrun (i : Instr) (s : State) (b : Bool) :
    ∃ t t', exec i s = .next t ∧ exec i (s.withOverrun b) = .next t' ∧ SameButOverrun t t' := by
  have hstarted : (s.withOverrun b).started = s.started := rfl
  cases i with
  | start own =>
    have hpresent : (s.withOverrun b).sink.present = s.sink.present := rfl
    rw [exec_start, exec_start, execStart, execStart, hstarted, hpresent]
    split
    · exact ⟨_, _, rfl, rfl, rfl⟩
    · split
      · exact ⟨_, _, rfl, rfl, rfl⟩
      · exact ⟨_, _, rfl, rfl, startSession_withOverrun own b s⟩
  | addFrame =>
    have hrefused : addFrameRefused (s.withOverrun b) = addFrameRefused s := rfl
    rw [exec_addFrame, exec_addFrame, execAddFrame, execAddFrame, hrefused]
    split
    · exact ⟨_, _, rfl, rfl, rfl⟩
    · exact ⟨_, _, rfl, rfl, submitFrame_withOverrun b s⟩
  | finish =>
    rw [exec_finish, exec_finish, execFinish, execFinish, hstarted]
    split
    · exact ⟨_, _, rfl, rfl, finishSession_withOverrun b s⟩
    · exact ⟨_, _, rfl, rfl, rfl⟩
  | setSize =>
    have hlife : (s.withOverrun b).lifecycle = s.lifecycle := rfl
    rw [exec_setSize, exec_setSize, execSetSize, execSetSize, hlife]
    split <;> exact ⟨_, _, rfl, rfl, rfl⟩
  | setDelay | setRepeat | setDispose | setTransparent | clearTransparent | setQuality => exact ⟨_, _, rfl, rfl, rfl⟩

/-- A dropped CMD write is put back as OVERRUN and as the mark of the running record, whatever OVERRUN the command left. -/
theorem restoreMeanwhile_dropped {t t' : State} (r : Running) (s : State) (h : SameButOverrun t t') :
    restoreMeanwhile { r with dropped := true } (dropCommand r s) t'
      = { restoreMeanwhile r s t with
          overrun := true
          running := (restoreMeanwhile r s t).running.map fun r' => { r' with dropped := true } } := by
  rw [h]
  simp [restoreMeanwhile, State.withOverrun, Function.comp_def]

/-- Settles O7: the CMD write is dropped; the running command's acceptance differs in OVERRUN alone, at which no command looks. -/
theorem commandWriteWhileBusyIsDropped : Obligations.CommandWriteWhileBusyIsDropped := by
  refine ⟨fun s r w rest hrun hin => ?_, fun s t r h => ?_⟩
  · rw [step_of_input hin, takeInput, hostWrite_cmd, issueCommand_running w (by exact hrun)]
    rfl
  · obtain ⟨u, u', hu, hu', hsame⟩ := exec_withOverrun r.instr (acceptedState r s) true
    have haccepted :
        acceptedState { r with dropped := true } (dropCommand r s) = (acceptedState r s).withOverrun true := rfl
    obtain rfl : restoreMeanwhile r s u = t := by simpa [resumeCommand, hu] using h
    change resumeCommand { r with dropped := true } (dropCommand r s) = _
    rw [resumeCommand, haccepted, hu', ← restoreMeanwhile_dropped r s hsame]

end Sys2Proof.Machine
end

section
/-! PROOFS. Reset, and who may touch frame memory when: the frame producer's write and its hazard, the bytes that a submitted
frame is read from, and the reset input (70_reset_and_hazards R260, R261, R265, R266). -/

namespace Sys2Proof.Machine

/-! ## The frame producer's write (R265) -/

theorem busyForAddFrame_iff (s : State) :
    busyForAddFrame s = true ↔ ∃ r, s.running = some r ∧ r.instr = .addFrame := by
  cases h : s.running <;> simp [busyForAddFrame, h]

theorem producerWrite_hazard {a : Nat} {v : Byte} {s : State} (ha : a < frameBytesCapacity s)
    (hbusy : busyForAddFrame s = true) : producerWrite a v s = .fault .frameHazard := by
  rw [producerWrite, if_neg (Nat.not_le.mpr ha), if_pos hbusy]

theorem producerWrite_store {a : Nat} {v : Byte} {s : State} (ha : a < frameBytesCapacity s)
    (hfree : ¬ busyForAddFrame s = true) : producerWrite a v s = .next (frameStore a v s) := by
  rw [producerWrite, if_neg (Nat.not_le.mpr ha), if_neg hfree]

/-- Settles O11: inside frame memory the write turns on BUSY for an ADD_FRAME alone, and a store puts one cell. -/
theorem producerWriteStoresOrIsTheHazard : Obligations.ProducerWriteStoresOrIsTheHazard := by
  intro s a v rest hin ha
  have hstep : step s = producerWrite a v { s with inputs := rest } := step_of_input hin
  refine ⟨fun hbusy => ?_, fun hfree => ?_⟩
  · exact hstep.trans (producerWrite_hazard ha ((busyForAddFrame_iff _).mpr hbusy))
  · have hnot : ¬ busyForAddFrame { s with inputs := rest } = true := fun h =>
      have ⟨r, hr, hadd⟩ := (busyForAddFrame_iff _).mp h
      hfree r hr hadd
    exact ⟨cellsPut s.frameMem a v, hstep.trans (producerWrite_store ha hnot), frameRead_put_same ..,
      fun _ hb => frameRead_put_other _ v hb⟩

/-! ## The bytes of a submitted frame (R266) -/

/-- A pixel's number, row-major, is below the number of the frame's pixels. -/
theorem pixelNumber_lt {fw fh x y : Nat} (hx : x < fw) (hy : y < fh) : y * fw + x < fw * fh :=
  calc y * fw + x < (y + 1) * fw := by rw [Nat.succ_mul]; omega
    _ ≤ fh * fw := Nat.mul_le_mul_right fw hy
    _ = fw * fh := Nat.mul_comm ..

/-- A pixel's three bytes stand below 3·fw·fh, and a pixel outside the frame is read from no byte. -/
theorem reformatPixel_congr {m m' : Memory} {fw fh : Nat}
    (h : ∀ a, a < 3 * (fw * fh) → frameRead m a = frameRead m' a) (x y : Nat) :
    reformatPixel m fw fh x y = reformatPixel m' fw fh x y := by
  unfold reformatPixel
  split
  · next hinside =>
    have hlt := pixelNumber_lt hinside.1 hinside.2
    simp only [framePixel]
    rw [h _ (by omega), h _ (by omega), h _ (by omega)]
  · rfl

/-- Settles O33: pixel by pixel. -/
theorem reformatReadsOnlyTheFrame : Obligations.ReformatReadsOnlyTheFrame := by
  intro m m' fw fh w h hagree
  simp only [reformat, reformatPixel_congr hagree]

/-! ## The reset input (R260, R261) -/

/-- Settles O13: the input is taken and `resetBlock` does the rest; the internal memories take the values the model gives them
at reset. -/
theorem resetInputGivesResetValues : Obligations.ResetInputGivesResetValues :=
  fun _ _ hin => ⟨FrameUnit.reset, LzwUnit.reset, step_of_input hin⟩

end Sys2Proof.Machine
end
